-- ==== Sys2Proof/Word.lean ====
section
/-! DEFINITION. The widths of the block's words (rules R5, R10 and R20 of spec/) and the opaque pin handle. -/

namespace Sys2Proof

/-- `pendingWord` and the value a `Read` returns: 16 bits, two's complement (R20, R10). -/
abbrev Word := BitVec 16

/-- `tickCounter`: `W_TC` = 8 bits, unsigned (R20, R5). -/
abbrev TickCount := BitVec 8

/-- `bitsRemaining`: `W_BR` = 4 bits, unsigned (R20, R5). -/
abbrev BitCount := BitVec 4

/-- The code of `phase`: `W_PH` = 3 bits (R20, R70). -/
abbrev PhaseCode := BitVec 3

/-- The dispatch word `d[6:0]` (R72). -/
abbrev DispatchWord := BitVec 7

/-- The sentinel -1, all 16 bits set (R10, R78). -/
abbrev sentinel : Word := 0xFFFF#16

/-- The type `Pin` of `inputPin`: an opaque handle, which the block stores and hands to `PinRead` and never
interprets (R20, R21). The number only tells one handle from another. -/
structure Pin where
  handle : Nat
  deriving DecidableEq, Repr, Inhabited

end Sys2Proof
end

