-- ==== Sys2Proof/Config.lean ====
section
/-! DEFINITION. What an instance fixes (the parameters of R5), what the outside presents at one clock edge (R12), and
the one free value of the model: an edge nobody has written down (log entry 3). -/

namespace Sys2Proof

/-- The named parameters of an instance, with the source's values as defaults (R5). They are fixed when the instance is
built and no operation writes them (R28). `tTickNanos` is `T_TICK` in nanoseconds; no rule reads it (R190). -/
structure Params where
  numBits : Nat := 13
  delay : Nat := 3
  timeout : Nat := 2
  tTickNanos : Nat := 300000
  deriving DecidableEq, Repr

/-- What the three agents of R7 present at one rising edge of `clk`: the input ports of R12. `pin` is the operand of
`Init` and matters only where `rst` is set. `highPins` are the pins whose raw level is 1 at this instant; every other
pin is at 0. The port `ir_raw` is the level of the pin that `inputPin` names. -/
structure Edge where
  rst : Bool
  tick : Bool
  rd : Bool
  pin : Pin
  highPins : List Pin
  deriving DecidableEq, Repr, Inhabited

/-- FREE VALUE (log entry 3). The edges that come once `State.inputs` is used up: nothing constrains what the agents do
or the level of a pin (R7, R60; D22 and U8 of spec/). It has no body, so nothing can be proved of it.
DESIGN CHOICE, unsafe (log entry 13): it depends on the count of drawn edges alone, so two instances (R165) with no edge
written down and equal counts draw the same edge. The spec leaves open whether instances share a tick source (R165) and
what levels they see (D22). -/
opaque Config.freeEdge : Nat → Edge

end Sys2Proof
end

