-- ==== Sys2Proof/Syntax.lean ====
section
/-! DEFINITION. The five phases (R22) and the thirteen rows of the dispatch table (R73), one constructor each. -/

namespace Sys2Proof

/-- The control state `phase`: exactly five values, a tagged enumeration as R22 asks. -/
inductive Phase where
  | standby
  | delaying
  | waiting
  | delayingEnd
  | idle
  deriving DecidableEq, Repr

/-- The rows of spec/opcode_table.json. A row's operands are the fields of its word that its rule uses: `level` is the
field `l`, the logical level of this event's sample (R72), carried where the row leaves it variable and the sample of
R110 stores it. A bit that R73 marks as not examined is no operand. -/
inductive Instr where
  /-- `NOP`: no event at this clock edge (R143). -/
  | nop
  /-- `STEP.STANDBY.HOLD`: `Step` in `Standby` that samples a space (R112). -/
  | stepStandbyHold
  /-- `STEP.STANDBY.TRIG`: `Step` in `Standby` that samples a mark (R113). -/
  | stepStandbyTrig
  /-- `STEP.DELAY`: `Step` in `Delaying` (R114). -/
  | stepDelay (level : Bool)
  /-- `STEP.WAIT.STAY0`: `Step` in `Waiting`, level and reference both 0 (R118). -/
  | stepWaitStay0
  /-- `STEP.WAIT.FALL`: `Step` in `Waiting`, level 0, reference 1 (R117). -/
  | stepWaitFall
  /-- `STEP.WAIT.RISE`: `Step` in `Waiting`, level 1, reference 0 (R116). -/
  | stepWaitRise
  /-- `STEP.WAIT.STAY1`: `Step` in `Waiting`, level and reference both 1 (R118). -/
  | stepWaitStay1
  /-- `STEP.END`: `Step` in `DelayingEnd` (R119). -/
  | stepEnd (level : Bool)
  /-- `STEP.IDLE`: `Step` in `Idle` (R120). -/
  | stepIdle (level : Bool)
  /-- `READ.BUSY`: `Read` in one of the four phases other than `Idle` (R141). -/
  | readBusy (phase : Phase)
  /-- `READ.IDLE`: `Read` in `Idle` (R140). -/
  | readIdle
  /-- `INIT`: `Init(pin)`; the pin is an operand outside the word (R100, R73). -/
  | init (pin : Pin)
  deriving DecidableEq, Repr

end Sys2Proof
end

