-- ==== Sys2Proof/Machine/State.lean ====
section
/-! DEFINITION. The state of one decoder instance (R20), the reasons a step can stop, and the state after reset (R34). -/

namespace Sys2Proof.Machine

/-- DecoderState (R20), the parameters of the instance (R5, R28), and four fields of the model's own. -/
structure State where
  /-- The parameters `NUM_BITS`, `DELAY`, `TIMEOUT`, `T_TICK`; no operation writes them (R5, R28). -/
  params : Params
  /-- Which pin each `Step` samples (R21). -/
  inputPin : Pin
  /-- The control state (R22). -/
  phase : Phase
  /-- The word under construction, and in `Idle` the result (R23). -/
  pendingWord : Word
  /-- The logical level of the most recent sample (R24). -/
  currentLevel : Bool
  /-- The level of the last capture (R25). -/
  referenceLevel : Bool
  /-- Ticks inside the current phase (R26). -/
  tickCounter : TickCount
  /-- Bits of the frame not yet decoded (R27). -/
  bitsRemaining : BitCount
  /-- The model's own: the first `Init` has happened (R183, log entry 5). -/
  initialised : Bool
  /-- The model's own: the clock edges to come that are written down (R8, R12, log entry 3). -/
  inputs : List Edge
  /-- The model's own: how many free edges have been drawn (log entry 3). -/
  edgeCount : Nat
  /-- The model's own: the values returned by `Read` so far, oldest first (R9, log entry 4). -/
  reads : List Word
  deriving DecidableEq, Repr

/-- The block has no exception, trap, fault or abort (R150), so there is no fault to name. -/
inductive Fault
  deriving DecidableEq, Repr

/-- The cases to which the spec gives no meaning. -/
inductive Refusal where
  /-- Raised by `exec` for an instruction without a meaning; no arm uses it. Safe. -/
  | notModelled (mnemonic : String)
  /-- Raised by every STEP and READ meaning when no `Init` has happened: the state is undefined and a model refuses
  the trace (R183; U2 of spec/). Safe. -/
  | beforeInit
  /-- Raised by every STEP and READ meaning when the state does not hold the phase (and for `Waiting` the reference
  level) that the row examines: the dispatch word is formed from the state (R72), so no event presents that row there.
  `step` never raises it. Safe (log entry 9). -/
  | notPresented
  /-- Raised by `step` for a word that is in no row (R86, R121). No state presents one. Safe (log entry 9). -/
  | reservedWord
  /-- Raised by `step` for parameters outside R6 (U10 of spec/). Safe (log
  entry 6). -/
  | inadmissibleParams
  deriving DecidableEq, Repr

/-- The machine right after reset, which is `Init(pin)` (R34, R180), with the source's parameters (R5). The level flags
are 0 as in the hardware binding (R34; a model may take any Boolean there: log entry 1), the pin is the handle 0 (log
entry 2), and nothing has been presented or returned yet. -/
def State.reset : State where
  params := { numBits := 13, delay := 3, timeout := 2, tTickNanos := 300000 }
  inputPin := ⟨0⟩
  phase := .standby
  pendingWord := 0#16
  currentLevel := false
  referenceLevel := false
  tickCounter := 0#8
  bitsRemaining := 13#4
  initialised := true
  inputs := []
  edgeCount := 0
  reads := []

end Sys2Proof.Machine
end

