-- ==== Sys2Proof/Machine/Flags.lean ====
section
/-! DEFINITION. The two level flags (R24, R25): the sample, the capture and the test for a transition. -/

namespace Sys2Proof.Machine

/-- The first action of every `Step`: `currentLevel` takes the logical level of this tick (R110). -/
def State.sample (s : State) (level : Bool) : State := { s with currentLevel := level }

/-- `referenceLevel <- currentLevel` (R114, R25). -/
def State.capture (s : State) : State := { s with referenceLevel := s.currentLevel }

/-- `currentLevel ≠ referenceLevel`, an equality test (R116, R117, R123). -/
def State.transition (s : State) : Bool := s.currentLevel != s.referenceLevel

end Sys2Proof.Machine
end

