-- ==== Sys2Proof/WellFormed.lean ====
section
/-! DEFINITION. Which instructions are well formed, and which parameters an instance may have (R6). -/

namespace Sys2Proof

/-- The one ill-formed shape that the types leave: `READ.BUSY` is for the phases other than `Idle` (R141). -/
def Instr.wf (i : Instr) : Bool :=
  match i with
  | .nop => true
  | .stepStandbyHold => true
  | .stepStandbyTrig => true
  | .stepDelay _ => true
  | .stepWaitStay0 => true
  | .stepWaitFall => true
  | .stepWaitRise => true
  | .stepWaitStay1 => true
  | .stepEnd _ => true
  | .stepIdle _ => true
  | .readBusy p => p != .idle
  | .readIdle => true
  | .init _ => true

/-- The constraints of R6 on the parameters, and a positive tick period (D15 of spec/): `1 <= NUM_BITS <= 15`,
`NUM_BITS <= 2^W_BR - 1`, `max(DELAY, TIMEOUT) + 1 <= 2^W_TC - 1`. -/
def Params.admissible (p : Params) : Bool :=
  decide (1 ≤ p.numBits) && decide (p.numBits ≤ 15) && decide (p.numBits ≤ 2 ^ 4 - 1) &&
    decide (max p.delay p.timeout + 1 ≤ 2 ^ 8 - 1) && decide (0 < p.tTickNanos)

end Sys2Proof
end

