-- ==== Sys2Proof/Machine/Ops.lean ====
section
/-! DEFINITION. The named operations on the registers, the arms of the state machine built from them, the timeout (the
block's one error, R151) and the way out of it (R159), and the hand-over of an event to its arm. -/

namespace Sys2Proof.Machine

/-- `setbit(v, i)`: OR with `1 << i` on 16 bits (R11, R123). -/
def setbit (v : Word) (i : Nat) : Word := v ||| (1#16 <<< i)

/-- `phase <- p` (R11). -/
def State.enter (s : State) (p : Phase) : State := { s with phase := p }

/-- `tickCounter <- 0` (R26). -/
def State.clearTicks (s : State) : State := { s with tickCounter := 0#8 }

/-- `tickCounter <- tickCounter + 1`, unsigned on 8 bits (R26, R123). -/
def State.countTick (s : State) : State := { s with tickCounter := s.tickCounter + 1#8 }

/-- `tickCounter > limit`, unsigned and strict (R10, R115, R123). -/
def State.exceeds (s : State) (limit : Nat) : Bool := decide (limit < s.tickCounter.toNat)

/-- `bitsRemaining <- bitsRemaining - 1`, unsigned on 4 bits (R27, R123). -/
def State.dropBit (s : State) : State := { s with bitsRemaining := s.bitsRemaining - 1#4 }

/-- If the level is 1, bit number `bitsRemaining` of `pendingWord` is set (R75, R77, R116). -/
def State.storeBit (s : State) : State :=
  { s with pendingWord := if s.currentLevel then setbit s.pendingWord s.bitsRemaining.toNat else s.pendingWord }

/-- The timeout, the block's one error, in the place of taking an exception (R11, R151): the sentinel replaces the whole
word and the block goes to `Idle`; the counters and the reference stay as they are (R152, R158). -/
def State.takeTimeout (s : State) : State := { s with pendingWord := sentinel, phase := .idle }

/-- The re-arm, in the place of returning from an exception, and the same after a complete word (R140, R159). -/
def State.rearm (s : State) : State :=
  { s with
    bitsRemaining := BitVec.ofNat 4 s.params.numBits
    tickCounter := 0#8
    pendingWord := 0#16
    phase := .standby }

/-- A `Read` returns a value: the block's only output (R9). -/
def State.returnValue (s : State) (v : Word) : State := { s with reads := s.reads ++ [v] }

/-- The effect of `initialize(pin)` (R100). The level flags are not written. -/
def State.initialise (s : State) (pin : Pin) : State :=
  { s with
    inputPin := pin
    phase := .standby
    tickCounter := 0#8
    pendingWord := 0#16
    bitsRemaining := BitVec.ofNat 4 s.params.numBits
    initialised := true }

/-- The trigger (R113). -/
def State.trigger (s : State) : State := (s.enter .delaying).clearTicks

/-- The arm `Delaying` (R114, R115): count, and at the count that exceeds `DELAY` capture and wait. -/
def State.delayArm (s : State) : State :=
  let s := s.countTick
  if s.exceeds s.params.delay then (s.capture.clearTicks).enter .waiting else s

/-- A transition (R116, R117): one bit fewer, the counter cleared, the bit stored at the decremented index, and on to
the next cell, or to `DelayingEnd` when no bit is left (R156). -/
def State.acceptBit (s : State) : State :=
  let s := ((s.dropBit).clearTicks).storeBit.enter .delaying
  if s.bitsRemaining = 0#4 then s.enter .delayingEnd else s

/-- No transition yet (R118, R115): count, and at the count that exceeds `TIMEOUT` time out. -/
def State.waitArm (s : State) : State :=
  let s := s.countTick
  if s.exceeds s.params.timeout then s.takeTimeout else s

/-- The arm `Waiting` on a sample: the transition test comes before the timeout count (R156). -/
def State.waitingArm (s : State) : State := if s.transition then s.acceptBit else s.waitArm

/-- The arm `DelayingEnd` (R119, R115): count, and at the count that exceeds `DELAY` go to `Idle`. -/
def State.endArm (s : State) : State :=
  let s := s.countTick
  if s.exceeds s.params.delay then s.enter .idle else s

/-- An event reaches its arm: nothing has a meaning before the first `Init` (R183), and a row has one only where the
state presents it (R72, R111). The arm's effect is one atomic change of the state (R55). -/
def State.onEvent (s : State) (presented : Bool) (arm : State → State) : Host.Outcome State Fault Refusal :=
  if s.initialised then if presented then .next (arm s) else .refused .notPresented else .refused .beforeInit

/-- `State.initialise` on parameters that R6 admits; the constructor of an instance rejects the others (U10 of spec/). -/
def State.build (p : Params) (pin : Pin) : Option State :=
  if p.admissible then some (({ State.reset with params := p } : State).initialise pin) else none

end Sys2Proof.Machine
end

