-- ==== Sys2Proof/Machine/Consumer.lean ====
section
/-! DEFINITION. Operation family 3, the consumer's read, and the no-event case (spec/42_read.md). -/

namespace Sys2Proof.Machine

/-- `READ.IDLE` (R140, R58): the result is returned and the block re-armed, in one atomic event. -/
def execReadIdle (s : State) : Host.Outcome State Fault Refusal :=
  s.onEvent (s.phase == .idle) fun s => (s.returnValue s.pendingWord).rearm

/-- `READ.BUSY` (R141): returns 0 and writes no state element. -/
def execReadBusy (p : Phase) (s : State) : Host.Outcome State Fault Refusal :=
  s.onEvent (s.phase == p && p != .idle) fun s => s.returnValue 0#16

/-- `NOP` (R143): every state element keeps its value. -/
def execNop (s : State) : Host.Outcome State Fault Refusal := .next s

end Sys2Proof.Machine
end

