-- ==== Sys2Proof/Machine/Initialize.lean ====
section
/-! DEFINITION. Operation family 1, initialisation (spec/40_initialize.md). -/

namespace Sys2Proof.Machine

/-- `INIT` (R100): from any state, also before the first `Init` (R183) and on a live instance (R102, R180). -/
def execInit (pin : Pin) (s : State) : Host.Outcome State Fault Refusal := .next (s.initialise pin)

end Sys2Proof.Machine
end

