-- ==== Sys2Proof/Machine/Tick.lean ====
section
/-! DEFINITION. Operation family 2, the tick step (spec/41_step.md): each arm samples first (R110), then acts (R111). -/

namespace Sys2Proof.Machine

/-- `STEP.STANDBY.HOLD` (R112). -/
def execStepStandbyHold (s : State) : Host.Outcome State Fault Refusal :=
  s.onEvent (s.phase == .standby) fun s => s.sample false

/-- `STEP.STANDBY.TRIG` (R113). -/
def execStepStandbyTrig (s : State) : Host.Outcome State Fault Refusal :=
  s.onEvent (s.phase == .standby) fun s => (s.sample true).trigger

/-- `STEP.DELAY` (R114). -/
def execStepDelay (level : Bool) (s : State) : Host.Outcome State Fault Refusal :=
  s.onEvent (s.phase == .delaying) fun s => (s.sample level).delayArm

/-- `STEP.WAIT.STAY0` (R118). -/
def execStepWaitStay0 (s : State) : Host.Outcome State Fault Refusal :=
  s.onEvent (s.phase == .waiting && s.referenceLevel == false) fun s => (s.sample false).waitingArm

/-- `STEP.WAIT.FALL` (R117). -/
def execStepWaitFall (s : State) : Host.Outcome State Fault Refusal :=
  s.onEvent (s.phase == .waiting && s.referenceLevel == true) fun s => (s.sample false).waitingArm

/-- `STEP.WAIT.RISE` (R116). -/
def execStepWaitRise (s : State) : Host.Outcome State Fault Refusal :=
  s.onEvent (s.phase == .waiting && s.referenceLevel == false) fun s => (s.sample true).waitingArm

/-- `STEP.WAIT.STAY1` (R118). -/
def execStepWaitStay1 (s : State) : Host.Outcome State Fault Refusal :=
  s.onEvent (s.phase == .waiting && s.referenceLevel == true) fun s => (s.sample true).waitingArm

/-- `STEP.END` (R119). -/
def execStepEnd (level : Bool) (s : State) : Host.Outcome State Fault Refusal :=
  s.onEvent (s.phase == .delayingEnd) fun s => (s.sample level).endArm

/-- `STEP.IDLE` (R120): nothing but the sample. -/
def execStepIdle (level : Bool) (s : State) : Host.Outcome State Fault Refusal :=
  s.onEvent (s.phase == .idle) fun s => s.sample level

end Sys2Proof.Machine
end

