-- ==== Sys2Proof/Machine/Dispatch.lean ====
section
/-! DEFINITION. One arm per row of the dispatch table (R111). -/

namespace Sys2Proof.Machine

def exec (i : Instr) (s : State) : Host.Outcome State Fault Refusal :=
  match i with
  | .nop => Sys2Proof.Machine.execNop s
  | .stepStandbyHold => Sys2Proof.Machine.execStepStandbyHold s
  | .stepStandbyTrig => Sys2Proof.Machine.execStepStandbyTrig s
  | .stepDelay level => Sys2Proof.Machine.execStepDelay level s
  | .stepWaitStay0 => Sys2Proof.Machine.execStepWaitStay0 s
  | .stepWaitFall => Sys2Proof.Machine.execStepWaitFall s
  | .stepWaitRise => Sys2Proof.Machine.execStepWaitRise s
  | .stepWaitStay1 => Sys2Proof.Machine.execStepWaitStay1 s
  | .stepEnd level => Sys2Proof.Machine.execStepEnd level s
  | .stepIdle level => Sys2Proof.Machine.execStepIdle level s
  | .readBusy p => Sys2Proof.Machine.execReadBusy p s
  | .readIdle => Sys2Proof.Machine.execReadIdle s
  | .init pin => Sys2Proof.Machine.execInit pin s

end Sys2Proof.Machine
end

