-- ==== Sys2Proof/Decode.lean ====
section
/-! DEFINITION. The phase codes (R70), the event codes (R73), the dispatch table, its decoder (total, rejecting by
name, R86) and after it the encoder. -/

namespace Sys2Proof

/-- The numeric codes of the phases (R70). -/
def Phase.code (p : Phase) : PhaseCode :=
  match p with
  | .standby => 0#3
  | .delaying => 1#3
  | .waiting => 2#3
  | .delayingEnd => 3#3
  | .idle => 4#3

/-- The phase with a code; codes 5, 6 and 7 are reserved and name none (R71). -/
def Phase.ofCode (c : PhaseCode) : Option Phase :=
  match c.toNat with
  | 0 => some .standby
  | 1 => some .delaying
  | 2 => some .waiting
  | 3 => some .delayingEnd
  | 4 => some .idle
  | _ => none

/-- The kinds of event of R73. -/
inductive EventKind where
  | nop
  | step
  | read
  | init
  deriving DecidableEq, Repr

/-- The field `op` of an event (R73). -/
def EventKind.code (k : EventKind) : BitVec 2 :=
  match k with
  | .nop => 0#2
  | .step => 1#2
  | .read => 2#2
  | .init => 3#2

/-- The event with an `op` code (R73). -/
def EventKind.ofCode (c : BitVec 2) : EventKind :=
  match c.toNat with
  | 0 => .nop
  | 1 => .step
  | 2 => .read
  | _ => .init

/-- `d = {op[1:0], phase[2:0], l, r}`, `op` in the most significant place (R72). -/
def packWord (op : BitVec 2) (phase : PhaseCode) (l r : Bool) : DispatchWord :=
  op ++ phase ++ BitVec.ofBool l ++ BitVec.ofBool r

/-- `d[6:5]`. -/
def opField (d : DispatchWord) : BitVec 2 := d.extractLsb' 5 2
/-- `d[4:2]`. -/
def phaseField (d : DispatchWord) : PhaseCode := d.extractLsb' 2 3
/-- `d[1]`. -/
def levelField (d : DispatchWord) : Bool := d.getLsbD 1
/-- `d[0]`. -/
def referenceField (d : DispatchWord) : Bool := d.getLsbD 0

/-- Why a word is no instruction. -/
inductive DecodeError where
  /-- A STEP or READ word with phase code 5, 6 or 7: it matches no row (R86, R121). -/
  | reservedPhase
  /-- A byte whose bit 7 is set: a dispatch word has 7 bits (R72). -/
  | notADispatchWord
  deriving DecidableEq, Repr

/-- The row of a `Step` that finds phase `p`, samples level `l` and finds reference level `r` (R73, R111). -/
def decodeStep (p : Phase) (l r : Bool) : Instr :=
  match p, l, r with
  | .standby, false, _ => .stepStandbyHold
  | .standby, true, _ => .stepStandbyTrig
  | .delaying, l, _ => .stepDelay l
  | .waiting, false, false => .stepWaitStay0
  | .waiting, false, true => .stepWaitFall
  | .waiting, true, false => .stepWaitRise
  | .waiting, true, true => .stepWaitStay1
  | .delayingEnd, l, _ => .stepEnd l
  | .idle, l, _ => .stepIdle l

/-- The row of a `Read` that finds phase `p` (R73). -/
def decodeRead (p : Phase) : Instr :=
  match p with
  | .standby => .readBusy .standby
  | .delaying => .readBusy .delaying
  | .waiting => .readBusy .waiting
  | .delayingEnd => .readBusy .delayingEnd
  | .idle => .readIdle

/-- The instruction of a dispatch word and of the pin operand that stands beside it (R72, R73). The `phase`, `l` and
`r` fields of NOP and INIT are ignored. -/
def decode (d : DispatchWord) (pin : Pin) : Except DecodeError Instr :=
  match EventKind.ofCode (opField d) with
  | .nop => .ok .nop
  | .init => .ok (.init pin)
  | .step =>
    match Phase.ofCode (phaseField d) with
    | some p => .ok (decodeStep p (levelField d) (referenceField d))
    | none => .error .reservedPhase
  | .read =>
    match Phase.ofCode (phaseField d) with
    | some p => .ok (decodeRead p)
    | none => .error .reservedPhase

/-- The decoder on any byte: the dispatch word in bits 6..0, bit 7 clear. -/
def decodeByte (b : BitVec 8) (pin : Pin) : Except DecodeError Instr :=
  if b.getLsbD 7 then .error .notADispatchWord else decode (b.setWidth 7) pin

/-- The instruction of an instruction's bits numbered as the opcode table numbers them: the first byte holds the
dispatch word, and what stands above it is the pin operand, which the table gives no bits (log entry 10). Bits from
`nbits` up are 0. -/
def decodeTableWord (nbits w : Nat) : Option Instr :=
  let v := w % 2 ^ nbits
  (decodeByte (BitVec.ofNat 8 v) ⟨v / 2 ^ 8⟩).toOption

/-- The dispatch word of an instruction, every bit that its row does not examine written 0 (R73). -/
def encodeWord (i : Instr) : DispatchWord :=
  match i with
  | .nop => packWord EventKind.nop.code 0#3 false false
  | .stepStandbyHold => packWord EventKind.step.code Phase.standby.code false false
  | .stepStandbyTrig => packWord EventKind.step.code Phase.standby.code true false
  | .stepDelay l => packWord EventKind.step.code Phase.delaying.code l false
  | .stepWaitStay0 => packWord EventKind.step.code Phase.waiting.code false false
  | .stepWaitFall => packWord EventKind.step.code Phase.waiting.code false true
  | .stepWaitRise => packWord EventKind.step.code Phase.waiting.code true false
  | .stepWaitStay1 => packWord EventKind.step.code Phase.waiting.code true true
  | .stepEnd l => packWord EventKind.step.code Phase.delayingEnd.code l false
  | .stepIdle l => packWord EventKind.step.code Phase.idle.code l false
  | .readBusy p => packWord EventKind.read.code p.code false false
  | .readIdle => packWord EventKind.read.code Phase.idle.code false false
  | .init _ => packWord EventKind.init.code 0#3 false false

/-- The operand beside the word: the pin of `INIT`; no other row has one, and the default handle stands there. -/
def encodePin (i : Instr) : Pin :=
  match i with
  | .nop => ⟨0⟩
  | .stepStandbyHold => ⟨0⟩
  | .stepStandbyTrig => ⟨0⟩
  | .stepDelay _ => ⟨0⟩
  | .stepWaitStay0 => ⟨0⟩
  | .stepWaitFall => ⟨0⟩
  | .stepWaitRise => ⟨0⟩
  | .stepWaitStay1 => ⟨0⟩
  | .stepEnd _ => ⟨0⟩
  | .stepIdle _ => ⟨0⟩
  | .readBusy _ => ⟨0⟩
  | .readIdle => ⟨0⟩
  | .init pin => pin

/-- An instruction's word and operand, as `decode` takes them. -/
def encode (i : Instr) : DispatchWord × Pin := (encodeWord i, encodePin i)

/-- The events that are a `Step` (R73). -/
def Instr.isStep (i : Instr) : Bool :=
  match i with
  | .nop => false
  | .stepStandbyHold => true
  | .stepStandbyTrig => true
  | .stepDelay _ => true
  | .stepWaitStay0 => true
  | .stepWaitFall => true
  | .stepWaitRise => true
  | .stepWaitStay1 => true
  | .stepEnd _ => true
  | .stepIdle _ => true
  | .readBusy _ => false
  | .readIdle => false
  | .init _ => false

/-- The events that are a `Read` (R73). -/
def Instr.isRead (i : Instr) : Bool :=
  match i with
  | .nop => false
  | .stepStandbyHold => false
  | .stepStandbyTrig => false
  | .stepDelay _ => false
  | .stepWaitStay0 => false
  | .stepWaitFall => false
  | .stepWaitRise => false
  | .stepWaitStay1 => false
  | .stepEnd _ => false
  | .stepIdle _ => false
  | .readBusy _ => true
  | .readIdle => true
  | .init _ => false

/-- One row of the dispatch table: a word is in the row when it agrees with `pattern` on the bits of `mask` (R73). -/
structure Row where
  pattern : DispatchWord
  mask : DispatchWord
  deriving DecidableEq, Repr

/-- A word is in a row. -/
def Row.holds (row : Row) (d : DispatchWord) : Bool := d &&& row.mask == row.pattern

/-- The columns `match` and `mask` of R73's table. -/
def rowOf (i : Instr) : Row :=
  match i with
  | .nop => ⟨0x00#7, 0x60#7⟩
  | .stepStandbyHold => ⟨0x20#7, 0x7E#7⟩
  | .stepStandbyTrig => ⟨0x22#7, 0x7E#7⟩
  | .stepDelay _ => ⟨0x24#7, 0x7C#7⟩
  | .stepWaitStay0 => ⟨0x28#7, 0x7F#7⟩
  | .stepWaitFall => ⟨0x29#7, 0x7F#7⟩
  | .stepWaitRise => ⟨0x2A#7, 0x7F#7⟩
  | .stepWaitStay1 => ⟨0x2B#7, 0x7F#7⟩
  | .stepEnd _ => ⟨0x2C#7, 0x7C#7⟩
  | .stepIdle _ => ⟨0x30#7, 0x7C#7⟩
  | .readBusy _ => ⟨0x40#7, 0x70#7⟩
  | .readIdle => ⟨0x50#7, 0x7C#7⟩
  | .init _ => ⟨0x60#7, 0x60#7⟩

/-- The thirteen rows, in the order of R73's table. -/
def table : List Row :=
  [⟨0x00#7, 0x60#7⟩, ⟨0x20#7, 0x7E#7⟩, ⟨0x22#7, 0x7E#7⟩, ⟨0x24#7, 0x7C#7⟩, ⟨0x28#7, 0x7F#7⟩, ⟨0x29#7, 0x7F#7⟩,
    ⟨0x2A#7, 0x7F#7⟩, ⟨0x2B#7, 0x7F#7⟩, ⟨0x2C#7, 0x7C#7⟩, ⟨0x30#7, 0x7C#7⟩, ⟨0x40#7, 0x70#7⟩, ⟨0x50#7, 0x7C#7⟩,
    ⟨0x60#7, 0x60#7⟩]

end Sys2Proof
end

