-- ==== Sys2Proof/Machine/Operands.lean ====
section
/-! DEFINITION. What an event takes from outside: the pin's level and its polarity (R74, R110), the kind of event at a
clock edge (R13, R73), and the dispatch word of an event in a state (R72). -/

namespace Sys2Proof

/-- `PinRead(pin)`: the raw level of a pin at this edge (R11, R110). It changes nothing (R61). -/
def Edge.pinRead (e : Edge) (pin : Pin) : Bool := decide (pin ∈ e.highPins)

/-- Polarity: the logical level is the complement of the raw level (R74). -/
def logicalLevel (raw : Bool) : Bool := !raw

/-- The event at an edge: `rst` alone counts where it is set, and a `Read` goes before a `Step` (R13, R157). -/
def Edge.kind (e : Edge) : EventKind :=
  if e.rst then .init else if e.rd then .read else if e.tick then .step else .nop

/-- What is left of an edge after its first event: the `Step` of an edge with both `rd` and `tick` set and `rst` clear
(R13, R73, R157). It samples the level of the same edge. -/
def Edge.leftover (e : Edge) : List Edge :=
  if !e.rst && e.rd && e.tick then [{ e with rd := false }] else []

namespace Machine

/-- `l`: the logical level of the configured pin at this edge (R72, R110, R21). -/
def State.sampledLevel (s : State) (e : Edge) : Bool := logicalLevel (e.pinRead s.inputPin)

/-- The dispatch word of an edge's event in a state (R72).
DESIGN CHOICE (log entry 14): R72 calls the field `l` meaningful only for a STEP; for a READ, INIT or NOP event the model
fills it, too, with the complement of the configured pin's level at the edge. `decode` never examines it there. -/
def State.dispatchWord (s : State) (e : Edge) : DispatchWord :=
  packWord e.kind.code s.phase.code (s.sampledLevel e) s.referenceLevel

/-- `rd_data`: combinational, computed from the state before the edge (R12). -/
def State.rdData (s : State) : Word := if s.phase = .idle then s.pendingWord else 0#16

end Machine

end Sys2Proof
end

