-- ==== Sys2Proof/Machine/Fetch.lean ====
section
/-! DEFINITION. Where the next event comes from (R8, R60), and the state and edge that present a given instruction. -/

namespace Sys2Proof.Machine

/-- The edge the next event belongs to: the first that is written down, else a free one (log entry 3).
DESIGN CHOICE (log entry 13): the free edge is one function of `edgeCount`, common to all instances. -/
def State.nextEdge (s : State) : Edge :=
  match s.inputs with
  | [] => Config.freeEdge s.edgeCount
  | e :: _ => e

/-- The edges still to come after this event: an edge with both strobes keeps its `Step` (R13, R157). -/
def State.nextInputs (s : State) : List Edge := s.nextEdge.leftover ++ s.inputs.tail

/-- The free edges drawn after this event. -/
def State.nextCount (s : State) : Nat :=
  match s.inputs with
  | [] => s.edgeCount + 1
  | _ :: _ => s.edgeCount

/-- The event has been taken from the inputs. No element of DecoderState changes. -/
def State.consume (s : State) : State := { s with inputs := s.nextInputs, edgeCount := s.nextCount }

/-- The instruction of the next event: its dispatch word decoded (R72, R73). -/
def State.fetch (s : State) : Except DecodeError Instr := decode (s.dispatchWord s.nextEdge) s.nextEdge.pin

/-- An edge with `tick` set at which the pin is at a logical level (R12, R74). -/
def tickEdge (pin : Pin) (level : Bool) : Edge :=
  { rst := false, tick := true, rd := false, pin := pin, highPins := if level then [] else [pin] }

/-- An edge with `rd` set (R12). -/
def readEdge (pin : Pin) : Edge := { rst := false, tick := false, rd := true, pin := pin, highPins := [] }

/-- An edge with `rst` set, which initialises to `pin` (R12). -/
def initEdge (pin : Pin) : Edge := { rst := true, tick := false, rd := false, pin := pin, highPins := [] }

/-- An edge with no strobe set (R13, R143). -/
def quietEdge (pin : Pin) : Edge := { rst := false, tick := false, rd := false, pin := pin, highPins := [] }

/-- The edge whose event presents an instruction, to a state whose pin is `pin` (R72, R73). -/
def edgeFor (pin : Pin) (i : Instr) : Edge :=
  match i with
  | .nop => quietEdge pin
  | .stepStandbyHold => tickEdge pin false
  | .stepStandbyTrig => tickEdge pin true
  | .stepDelay level => tickEdge pin level
  | .stepWaitStay0 => tickEdge pin false
  | .stepWaitFall => tickEdge pin false
  | .stepWaitRise => tickEdge pin true
  | .stepWaitStay1 => tickEdge pin true
  | .stepEnd level => tickEdge pin level
  | .stepIdle level => tickEdge pin level
  | .readBusy _ => readEdge pin
  | .readIdle => readEdge pin
  | .init p => initEdge p

/-- The phase an instruction's word holds, where its row examines it; else the state's own (R72, R73). -/
def phaseFor (s : State) (i : Instr) : Phase :=
  match i with
  | .nop => s.phase
  | .stepStandbyHold => .standby
  | .stepStandbyTrig => .standby
  | .stepDelay _ => .delaying
  | .stepWaitStay0 => .waiting
  | .stepWaitFall => .waiting
  | .stepWaitRise => .waiting
  | .stepWaitStay1 => .waiting
  | .stepEnd _ => .delayingEnd
  | .stepIdle _ => .idle
  | .readBusy p => p
  | .readIdle => .idle
  | .init _ => s.phase

/-- The reference level an instruction's word holds, where its row examines it; else the state's own (R72, R73). -/
def referenceFor (s : State) (i : Instr) : Bool :=
  match i with
  | .nop => s.referenceLevel
  | .stepStandbyHold => s.referenceLevel
  | .stepStandbyTrig => s.referenceLevel
  | .stepDelay _ => s.referenceLevel
  | .stepWaitStay0 => false
  | .stepWaitFall => true
  | .stepWaitRise => false
  | .stepWaitStay1 => true
  | .stepEnd _ => s.referenceLevel
  | .stepIdle _ => s.referenceLevel
  | .readBusy _ => s.referenceLevel
  | .readIdle => s.referenceLevel
  | .init _ => s.referenceLevel

/-- `s` with an instruction presented to its next step: the edge stands first among the inputs, and the phase and the
reference level are those of the word, which has no other place to stand (R72, log entry 11). -/
def State.presenting (s : State) (i : Instr) : State :=
  { s with
    phase := phaseFor s i
    referenceLevel := referenceFor s i
    inputs := edgeFor s.inputPin i :: s.inputs }

end Sys2Proof.Machine
end

