-- ==== Sys2Proof/Machine/Step.lean ====
section
/-! DEFINITION. One step: the next event of the block (R8), dispatched on the state it finds (R73, R111). -/

namespace Sys2Proof.Machine

/-- One event. An instance whose parameters R6 does not admit has no meaning (U10 of spec/). -/
def step (s : State) : Host.Outcome State Fault Refusal :=
  if s.params.admissible then
    match s.fetch with
    | .ok i => exec i s.consume
    | .error _ => .refused .reservedWord
  else .refused .inadmissibleParams

/-- `s` with the instruction of an opcode-table word presented to its next step. A word that is no instruction can be
presented by no state, and leaves `s` as it is (log entries 10 and 11). -/
def State.withFetchWord (s : State) (nbits w : Nat) : State :=
  match decodeTableWord nbits w with
  | some i => s.presenting i
  | none => s

end Sys2Proof.Machine
end

