-- ==== Sys2Proof/Machine/Instances.lean ====
section
/-! DEFINITION. Several independent instances (R165). -/

namespace Sys2Proof.Machine

/-- One event on instance `k`. Instances share no state (R165). Each takes the edges of its own `inputs`;
what they see where none are written down, which R165 and D22 leave open, is log entry 13 (DESIGN CHOICE). -/
def stepInstance (xs : List State) (k : Fin xs.length) : Host.Outcome (List State) Fault Refusal :=
  match step xs[k] with
  | .next t => .next (xs.set k t)
  | .fault f => .fault f
  | .refused r => .refused r

end Sys2Proof.Machine
end

