-- ==== Sys2Proof/Machine/Trace.lean ====
section
/-! DEFINITION. The trace notation (R83) and its pseudo-operations (R84), as the edges they stand for. -/

namespace Sys2Proof.Machine

/-- The tokens of R83. -/
inductive Token where
  /-- `I`. -/
  | initialise
  /-- `m`, `Step(raw = 0)`. -/
  | mark
  /-- `s`, `Step(raw = 1)`. -/
  | space
  /-- `R`. -/
  | read
  /-- `R&m`. -/
  | readMark
  /-- `R&s`. -/
  | readSpace
  deriving DecidableEq, Repr

/-- The edge of a token, for an instance that samples `pin` (R83, R12). -/
def Token.edge (pin : Pin) (t : Token) : Edge :=
  match t with
  | .initialise => initEdge pin
  | .mark => tickEdge pin true
  | .space => tickEdge pin false
  | .read => readEdge pin
  | .readMark => { tickEdge pin true with rd := true }
  | .readSpace => { tickEdge pin false with rd := true }

/-- The edges of a trace, left to right (R83). -/
def trace (pin : Pin) (ts : List Token) : List Edge := ts.map (Token.edge pin)

/-- The token of one tick at a logical level (R83). -/
def levelToken (level : Bool) : Token := if level then .mark else .space

/-- The tokens of a run of ticks. -/
def ticks (levels : List Bool) : List Token := levels.map levelToken

/-- `MARK(n)` (R84). -/
def markRun (n : Nat) : List Token := List.replicate n .mark

/-- `SPACE(n)` and `TAIL(n)` (R84). -/
def spaceRun (n : Nat) : List Token := List.replicate n .space

/-- `BIT(b)` with half-cells of `h` ticks: the first half is at the complement of the bit, the second at the bit (R75,
R84). -/
def bitCell (h : Nat) (b : Bool) : List Token := if b then spaceRun h ++ markRun h else markRun h ++ spaceRun h

/-- The bits of a word from position `n - 1` down to 0, the order in which a frame carries them (R76, R77). -/
def frameBits (n : Nat) (w : Word) : List Bool :=
  match n with
  | 0 => []
  | n + 1 => w.getLsbD n :: frameBits n w

/-- `FRAME(w)` of `n` bits: a leading `BIT1`, then a cell for each bit (R84). -/
def frame (h n : Nat) (w : Word) : List Token := bitCell h true ++ (frameBits n w).flatMap (bitCell h)

end Sys2Proof.Machine
end

