-- ==== Sys2Proof/Safety.lean ====
section
/-! DEFINITION. What the claims speak of: the invariant of the reachable states (R30 to R32), the edges along which
`phase` may change (R124), and when no consumer can tell two states apart (R9, R33). -/

namespace Sys2Proof.Machine

/-- A word under construction: only positions already decoded can be set (R32). -/
abbrev State.Partial (s : State) : Prop :=
  s.pendingWord.toNat % 2 ^ s.bitsRemaining.toNat = 0 ∧ s.pendingWord.toNat < 2 ^ s.params.numBits

/-- `1 <= bitsRemaining <= NUM_BITS` (R30). -/
abbrev State.BitsLeft (s : State) : Prop := 1 ≤ s.bitsRemaining.toNat ∧ s.bitsRemaining.toNat ≤ s.params.numBits

/-- `Idle` after a complete frame (R30 to R32). -/
abbrev State.Completed (s : State) : Prop :=
  s.bitsRemaining = 0#4 ∧ s.tickCounter.toNat = s.params.delay + 1 ∧ s.pendingWord.toNat < 2 ^ s.params.numBits

/-- `Idle` after a timeout (R30 to R32, R152). -/
abbrev State.TimedOut (s : State) : Prop :=
  s.BitsLeft ∧ s.tickCounter.toNat = s.params.timeout + 1 ∧ s.pendingWord = sentinel

/-- What R30, R31 and R32 say of each phase. -/
abbrev State.Shape (s : State) : Prop :=
  (s.phase = .standby → s.bitsRemaining.toNat = s.params.numBits ∧ s.tickCounter = 0#8 ∧ s.pendingWord = 0#16) ∧
  (s.phase = .delaying → s.BitsLeft ∧ s.tickCounter.toNat ≤ s.params.delay ∧ s.Partial) ∧
  (s.phase = .waiting → s.BitsLeft ∧ s.tickCounter.toNat ≤ s.params.timeout ∧ s.Partial) ∧
  (s.phase = .delayingEnd → s.bitsRemaining = 0#4 ∧ s.tickCounter.toNat ≤ s.params.delay ∧ s.Partial) ∧
  (s.phase = .idle → s.Completed ∨ s.TimedOut)

/-- A value a `Read` may return: 0, the sentinel, or a word of `NUM_BITS` bits (R78, R80). -/
abbrev legalResult (numBits : Nat) (v : Word) : Prop := v = sentinel ∨ v.toNat < 2 ^ numBits

/-- The invariant: admissible parameters (R6), the shape of each phase once the block is initialised, and no value ever
returned but those of R78. -/
abbrev State.Inv (s : State) : Prop :=
  s.params.admissible = true ∧ (s.initialised = true → s.Shape) ∧ ∀ v ∈ s.reads, legalResult s.params.numBits v

/-- The edges E1 to E8 of R124: `phase` may go to `q` when `i` runs in `s`, under the condition of the edge. -/
def phaseEdge (i : Instr) (s : State) (q : Phase) : Prop :=
  (s.phase = .standby ∧ q = .delaying ∧ i = .stepStandbyTrig) ∨
  (s.phase = .delaying ∧ q = .waiting ∧ (∃ l, i = .stepDelay l) ∧ s.params.delay < (s.tickCounter + 1#8).toNat) ∨
  (s.phase = .waiting ∧ q = .delaying ∧ (i = .stepWaitRise ∨ i = .stepWaitFall) ∧ s.bitsRemaining - 1#4 ≠ 0#4) ∨
  (s.phase = .waiting ∧ q = .delayingEnd ∧ (i = .stepWaitRise ∨ i = .stepWaitFall) ∧ s.bitsRemaining - 1#4 = 0#4) ∨
  (s.phase = .waiting ∧ q = .idle ∧ (i = .stepWaitStay0 ∨ i = .stepWaitStay1) ∧
    s.params.timeout < (s.tickCounter + 1#8).toNat) ∨
  (s.phase = .delayingEnd ∧ q = .idle ∧ (∃ l, i = .stepEnd l) ∧ s.params.delay < (s.tickCounter + 1#8).toNat) ∨
  (s.phase = .idle ∧ q = .standby ∧ i = .readIdle) ∨
  (q = .standby ∧ ∃ pin, i = .init pin)

/-- Two states that differ in nothing but `currentLevel`, and in `referenceLevel` where the phase is not `Waiting`: the
level flags before they are written again (R24, R25, R33). -/
def State.SameToConsumer (s t : State) : Prop :=
  t = { s with currentLevel := t.currentLevel, referenceLevel := t.referenceLevel } ∧
    (s.phase = .waiting → t.referenceLevel = s.referenceLevel)

end Sys2Proof.Machine
end

