-- ==== Sys2Proof/Certificates/Slice0/Obligations.lean ====
section
/-! DEFINITION. The statements for the provers. A docstring names the rule of spec/ that a statement formalises, and
where the rule rests on a decision of the spec's own (92_eei_decisions.md) or on a choice of the model, says so. -/

open Sys2Proof Sys2Proof.Machine

/-! ## Encoding -/

/-- Decode and encode agree (R72, R73; the dispatch word is the spec's decision D16): every well-formed instruction,
with every operand, is what its word and pin operand decode to. -/
def Obligations.DecodeOfEncodeIsTheInstruction : Prop :=
  ∀ i : Instr, i.wf = true → decode (encode i).1 (encode i).2 = .ok i

/-- What a word decodes to is well formed, the word is in the row of that instruction, and the word written for the
instruction agrees with it on every bit the row examines, and for a `Step` also on `l` (R72, R73; D16). -/
def Obligations.DecodedWordIsInTheRowOfItsInstruction : Prop :=
  ∀ (d : DispatchWord) (pin : Pin) (i : Instr), decode d pin = .ok i →
    i.wf = true ∧ (rowOf i).holds d = true ∧ encodeWord i &&& (rowOf i).mask = d &&& (rowOf i).mask ∧
      (i.isStep = true → levelField (encodeWord i) = levelField d)

/-- The rows are pairwise disjoint and their union is every word but those with `op` STEP or READ and a reserved phase
code; those are in no row (R86; D16). -/
def Obligations.EveryWordIsInExactlyOneRowUnlessReserved : Prop :=
  (table.Pairwise fun a b => ∀ d : DispatchWord, ¬ (a.holds d = true ∧ b.holds d = true)) ∧
    ∀ d : DispatchWord,
      (table.filter fun row => row.holds d).length =
        if (opField d = 1#2 ∨ opField d = 2#2) ∧ 5 ≤ (phaseField d).toNat then 0 else 1

/-- The decoder rejects exactly the words with `op` STEP or READ and phase code 5, 6 or 7, and those by one name (R71,
R86, R121; D13, D16). Every NOP and INIT word decodes, whatever its `phase`, `l` and `r` fields (R73). -/
def Obligations.ReservedWordsAreRejectedByName : Prop :=
  ∀ (d : DispatchWord) (pin : Pin),
    (∀ r, decode d pin = .error r ↔
      r = .reservedPhase ∧ (opField d = 1#2 ∨ opField d = 2#2) ∧ 5 ≤ (phaseField d).toNat) ∧
    (opField d = 0#2 → decode d pin = .ok .nop) ∧
    (opField d = 3#2 → decode d pin = .ok (.init pin))

/-- Words written out from R73's table, one or more of each family, decode to the instructions they stand for. -/
def Obligations.WordsOfTheTableDecode : Prop :=
  decode 0b0000000#7 ⟨3⟩ = .ok .nop ∧
  decode 0b0100001#7 ⟨3⟩ = .ok .stepStandbyHold ∧
  decode 0b0100010#7 ⟨3⟩ = .ok .stepStandbyTrig ∧
  decode 0b0100110#7 ⟨3⟩ = .ok (.stepDelay true) ∧
  decode 0b0101001#7 ⟨3⟩ = .ok .stepWaitFall ∧
  decode 0b0101010#7 ⟨3⟩ = .ok .stepWaitRise ∧
  decode 0b0101100#7 ⟨3⟩ = .ok (.stepEnd false) ∧
  decode 0b1001000#7 ⟨3⟩ = .ok (.readBusy .waiting) ∧
  decode 0b1010000#7 ⟨3⟩ = .ok .readIdle ∧
  decode 0b1111111#7 ⟨3⟩ = .ok (.init ⟨3⟩)

/-! ## The step -/

/-- A step runs the decoded instruction: where the dispatch word of the next event decodes to `i`, the step is `exec i`
on the state with that event taken from the inputs, and taking it changes no element of DecoderState (R8, R72). -/
def Obligations.StepRunsTheDecodedInstruction : Prop :=
  ∀ (s : State) (i : Instr), s.params.admissible = true →
    decode (s.dispatchWord s.nextEdge) s.nextEdge.pin = .ok i →
    step s = exec i s.consume ∧ s.consume = { s with inputs := s.nextInputs, edgeCount := s.nextCount }

/-- In every state and for every event the dispatch word is legal: it decodes to a well-formed instruction of the
event's kind, which is presented by the state itself (R72, R86; D16). -/
def Obligations.EveryEventPresentsALegalInstruction : Prop :=
  ∀ s : State, ∃ i : Instr, s.fetch = .ok i ∧ i.wf = true ∧
    phaseFor s i = s.phase ∧ referenceFor s i = s.referenceLevel ∧
    (i.isStep = true ↔ s.nextEdge.kind = .step) ∧ (i.isRead = true ↔ s.nextEdge.kind = .read) ∧
    (i = .nop ↔ s.nextEdge.kind = .nop) ∧ (i = .init s.nextEdge.pin ↔ s.nextEdge.kind = .init)

/-- A step completes, whatever the levels, wherever the parameters are admissible and the block is initialised or is
being initialised or has no event (R125, R150); elsewhere it is refused by name. That a model refuses an event before
the first `Init`, and inadmissible parameters, are the spec's decisions D11 and D2, D3 (U2 and U10; log entries 5, 6). -/
def Obligations.StepStopsOnlyWithoutInitOrWithBadParameters : Prop :=
  ∀ s : State,
    (s.params.admissible = true →
      s.initialised = true ∨ s.nextEdge.kind = .init ∨ s.nextEdge.kind = .nop → ∃ t, step s = .next t) ∧
    (s.params.admissible = true → s.initialised = false → s.nextEdge.kind = .step ∨ s.nextEdge.kind = .read →
      step s = .refused .beforeInit) ∧
    (s.params.admissible = false → step s = .refused .inadmissibleParams)

/-- Every well-formed instruction can be presented to a step, which then runs exactly it (the model's choice of how,
log entry 11; R72). -/
def Obligations.PresentedInstructionIsTheOneTheStepRuns : Prop :=
  ∀ (s : State) (i : Instr), i.wf = true → s.params.admissible = true →
    step (s.presenting i) = exec i { s.presenting i with inputs := s.inputs }

/-- The events of one clock edge (R13; the binding and the order are the spec's decisions D8 and D9): `rst` alone
counts; no strobe is no event; one strobe is that event, on the complement of the pin's level; both strobes are a
`Read` and then a `Step` of the same edge. -/
def Obligations.EventsOfAClockEdge : Prop :=
  ∀ (s : State) (e : Edge) (rest : List Edge), s.params.admissible = true → s.inputs = e :: rest →
    (e.rst = true → step s = exec (.init e.pin) { s with inputs := rest }) ∧
    (e.rst = false → e.rd = false → e.tick = false → step s = .next { s with inputs := rest }) ∧
    (e.rst = false → e.rd = true → e.tick = false → step s = exec (decodeRead s.phase) { s with inputs := rest }) ∧
    (e.rst = false → e.rd = false → e.tick = true →
      step s = exec (decodeStep s.phase (!decide (s.inputPin ∈ e.highPins)) s.referenceLevel) { s with inputs := rest }) ∧
    (e.rst = false → e.rd = true → e.tick = true →
      step s = step { s with inputs := { e with tick := false } :: { e with rd := false } :: rest })

/-- A `Read` and a `Step` at the same edge, in `Idle` (R157; `Read` first is the spec's decision D8): the result is
returned, the block re-armed (R140), and then this tick's sample taken in `Standby` (R112, R113), where a mark triggers
at once. That it does so with no edge in the level is the spec's decision D6 (R188). -/
def Obligations.ReadThenTickAtOneEdgeInIdle : Prop :=
  ∀ (s : State) (level : Bool) (rest : List Edge), s.params.admissible = true → s.initialised = true →
    s.phase = .idle → s.inputs = { tickEdge s.inputPin level with rd := true } :: rest →
    Sys2Proof.core.run 2 s = .next { s with
      reads := s.reads ++ [s.pendingWord]
      pendingWord := 0#16
      tickCounter := 0#8
      bitsRemaining := BitVec.ofNat 4 s.params.numBits
      currentLevel := level
      phase := if level then .delaying else .standby
      inputs := rest }

/-- With no edge written down the next edge is a free one, about which nothing is known (the model's choice, log entry
3; D22). -/
def Obligations.EdgeIsFreeWhereNoneIsWrittenDown : Prop :=
  ∀ s : State, s.inputs = [] →
    step s = step { s with inputs := [Config.freeEdge s.edgeCount], edgeCount := s.edgeCount + 1 }

/-! ## Reset and parameters -/

/-- The state after reset (R34). That `State.reset` is an instance with the defaults 13, 3, 2 and 300 microseconds, which
the source gives unaudited (R5, U16, D15), and so the 13 of `bitsRemaining`, is the model's choice (log entry 6, DESIGN
CHOICE). The level flags (D7, log entry 1), the pin (log entry 2) and the model's own fields
(log entries 3 to 5) are the model's choice and are not stated here. -/
def Obligations.ResetLeavesStandbyWithClearedCounters : Prop :=
  State.reset.phase = .standby ∧ State.reset.pendingWord = 0#16 ∧ State.reset.tickCounter = 0#8 ∧
    State.reset.bitsRemaining = 13#4 ∧
    State.reset.params = { numBits := 13, delay := 3, timeout := 2, tTickNanos := 300000 }

/-- The constructor of an instance rejects exactly the parameters outside R6 (U10; D2 and D3) and a tick period of 0, on
which R6 is silent (D15 admits any positive duration; the model's choice to reject 0 is in log entry 6). Otherwise it
leaves the state after `Init` (R34), whatever the parameters; `initialised` is the model's own mark (log entry 5). -/
def Obligations.BuildRejectsExactlyInadmissibleParameters : Prop :=
  ∀ (p : Params) (pin : Pin),
    (State.build p pin = none ↔
      ¬ (1 ≤ p.numBits ∧ p.numBits ≤ 15 ∧ max p.delay p.timeout + 1 ≤ 255 ∧ 0 < p.tTickNanos)) ∧
    ∀ s, State.build p pin = some s →
      s.params = p ∧ s.inputPin = pin ∧ s.phase = .standby ∧ s.pendingWord = 0#16 ∧ s.tickCounter = 0#8 ∧
        s.bitsRemaining.toNat = p.numBits ∧ s.initialised = true

/-! ## What each instruction does -/

/-- `INIT` (R100), from any state: the pin stored, `Standby`, the counters and the word cleared, `bitsRemaining` at
`NUM_BITS`, and nothing else written, the level flags included. `initialised` is the model's own (log entry 5). -/
def Obligations.InitStoresThePinAndClearsTheBlock : Prop :=
  ∀ (s : State) (pin : Pin),
    exec (.init pin) s = .next { s with
      inputPin := pin
      phase := .standby
      tickCounter := 0#8
      pendingWord := 0#16
      bitsRemaining := BitVec.ofNat 4 s.params.numBits
      initialised := true }

/-- `NOP` (R143; the no-event edge is the spec's decision D9): every element keeps its value. -/
def Obligations.NopChangesNothing : Prop := ∀ s : State, exec .nop s = .next s

/-- `STEP.STANDBY.HOLD` (R112): a space in `Standby` changes nothing but `currentLevel`. -/
def Obligations.StandbyHoldsOnASpace : Prop :=
  ∀ s : State, s.initialised = true → s.phase = .standby →
    exec .stepStandbyHold s = .next { s with currentLevel := false }

/-- `STEP.STANDBY.TRIG` (R113; that the level alone triggers is the spec's decision D6): no bit is counted or stored. -/
def Obligations.StandbyTriggersOnAMark : Prop :=
  ∀ s : State, s.initialised = true → s.phase = .standby →
    exec .stepStandbyTrig s = .next { s with currentLevel := true, phase := .delaying, tickCounter := 0#8 }

/-- `STEP.DELAY` (R114 with the reading of R115, the spec's decision D4): increment, and where the incremented count is
above `DELAY` the capture of this tick's level. -/
def Obligations.DelayingCountsThenCaptures : Prop :=
  ∀ (s : State) (level : Bool), s.initialised = true → s.phase = .delaying →
    exec (.stepDelay level) s = .next
      (if s.params.delay < (s.tickCounter + 1#8).toNat then
        { s with currentLevel := level, referenceLevel := level, tickCounter := 0#8, phase := .waiting }
      else { s with currentLevel := level, tickCounter := s.tickCounter + 1#8 })

/-- `STEP.WAIT.RISE` (R116; that the decremented count is the index is the spec's decision D18): bit 1 accepted. -/
def Obligations.RiseStoresAOneBit : Prop :=
  ∀ s : State, s.initialised = true → s.phase = .waiting → s.referenceLevel = false →
    exec .stepWaitRise s = .next { s with
      currentLevel := true
      bitsRemaining := s.bitsRemaining - 1#4
      tickCounter := 0#8
      pendingWord := s.pendingWord ||| (1#16 <<< (s.bitsRemaining - 1#4).toNat)
      phase := if s.bitsRemaining - 1#4 = 0#4 then .delayingEnd else .delaying }

/-- `STEP.WAIT.FALL` (R117): bit 0 accepted, `pendingWord` unchanged. -/
def Obligations.FallAcceptsAZeroBit : Prop :=
  ∀ s : State, s.initialised = true → s.phase = .waiting → s.referenceLevel = true →
    exec .stepWaitFall s = .next { s with
      currentLevel := false
      bitsRemaining := s.bitsRemaining - 1#4
      tickCounter := 0#8
      phase := if s.bitsRemaining - 1#4 = 0#4 then .delayingEnd else .delaying }

/-- `STEP.WAIT.STAY0` and `STEP.WAIT.STAY1` (R118 with the reading of R115, the spec's decision D4; R152): increment,
and where the incremented count is above `TIMEOUT` the timeout, which leaves the counters and the reference. -/
def Obligations.StayCountsThenTimesOut : Prop :=
  ∀ s : State, s.initialised = true → s.phase = .waiting →
    let after : State :=
      if s.params.timeout < (s.tickCounter + 1#8).toNat then
        { s with
          currentLevel := s.referenceLevel
          tickCounter := s.tickCounter + 1#8
          pendingWord := 0xFFFF#16
          phase := .idle }
      else { s with currentLevel := s.referenceLevel, tickCounter := s.tickCounter + 1#8 }
    (s.referenceLevel = false → exec .stepWaitStay0 s = .next after) ∧
      (s.referenceLevel = true → exec .stepWaitStay1 s = .next after)

/-- `STEP.END` (R119; its counter discipline is the spec's decision D5): increment, and `Idle` where the incremented
count is above `DELAY`; the counter is not cleared and the reference not written. -/
def Obligations.DelayingEndCountsThenIdles : Prop :=
  ∀ (s : State) (level : Bool), s.initialised = true → s.phase = .delayingEnd →
    exec (.stepEnd level) s = .next
      (if s.params.delay < (s.tickCounter + 1#8).toNat then
        { s with currentLevel := level, tickCounter := s.tickCounter + 1#8, phase := .idle }
      else { s with currentLevel := level, tickCounter := s.tickCounter + 1#8 })

/-- `STEP.IDLE` (R120): a tick in `Idle` writes nothing but `currentLevel`, and only the re-arming `Read` or an `Init`
leaves `Idle`. -/
def Obligations.IdleIgnoresTheTick : Prop :=
  ∀ s : State, s.initialised = true → s.phase = .idle →
    (∀ level : Bool, exec (.stepIdle level) s = .next { s with currentLevel := level }) ∧
    ∀ (i : Instr) (t : State), exec i s = .next t → t.phase ≠ .idle → i = .readIdle ∨ ∃ pin, i = .init pin

/-- `READ.IDLE` (R140): the captured word is returned, and `bitsRemaining`, `tickCounter`, `pendingWord` and `phase`
are reset; the level flags and the pin are not written. In a state of the invariant the word is in
`[0, 2^NUM_BITS - 1]` or is -1. -/
def Obligations.ReadInIdleReturnsTheResultAndRearms : Prop :=
  ∀ s : State, s.initialised = true → s.phase = .idle →
    exec .readIdle s = .next { s with
      reads := s.reads ++ [s.pendingWord]
      bitsRemaining := BitVec.ofNat 4 s.params.numBits
      tickCounter := 0#8
      pendingWord := 0#16
      phase := .standby } ∧
    (s.Inv → s.pendingWord.toInt = -1 ∨
      (0 ≤ s.pendingWord.toInt ∧ s.pendingWord.toInt ≤ 2 ^ s.params.numBits - 1))

/-- `READ.BUSY` (R141): returns 0 in each of the four phases other than `Idle`, and writes no state element. -/
def Obligations.ReadWhileBusyReturnsZeroAndWritesNothing : Prop :=
  ∀ s : State, s.initialised = true → s.phase ≠ .idle →
    exec (.readBusy s.phase) s = .next { s with reads := s.reads ++ [0#16] }

/-! ## Where an instruction runs, and what it may write -/

/-- Before the first `Init` no `Step` and no `Read` has a meaning (R183; refusing them is the spec's decision D11, log
entry 5), whatever its operands. -/
def Obligations.StepAndReadAreRefusedBeforeInit : Prop :=
  ∀ (i : Instr) (s : State), i.isStep = true ∨ i.isRead = true → s.initialised = false →
    exec i s = .refused .beforeInit

/-- A STEP or READ row runs exactly where the state is initialised and holds the phase and the reference level that the
row examines, and is otherwise refused by name: the model's choice (log entry 9), since the word is formed from the
state (R72). -/
def Obligations.RowRunsExactlyWhereTheStatePresentsIt : Prop :=
  ∀ (i : Instr) (s : State), i.wf = true → i.isStep = true ∨ i.isRead = true → s.initialised = true →
    (phaseFor s i = s.phase ∧ referenceFor s i = s.referenceLevel → ∃ t, exec i s = .next t) ∧
    (¬ (phaseFor s i = s.phase ∧ referenceFor s i = s.referenceLevel) → exec i s = .refused .notPresented)

/-- The writes of the access matrix (R29): which rows may change which element, the model's own fields included. -/
def Obligations.EachElementIsWrittenOnlyByItsEvents : Prop :=
  ∀ (i : Instr) (s t : State), exec i s = .next t →
    (t.params = s.params ∧ t.inputs = s.inputs ∧ t.edgeCount = s.edgeCount) ∧
    (t.inputPin ≠ s.inputPin → ∃ pin, i = .init pin) ∧
    (t.phase ≠ s.phase →
      i = .stepStandbyTrig ∨ (∃ l, i = .stepDelay l) ∨ i = .stepWaitRise ∨ i = .stepWaitFall ∨ i = .stepWaitStay0 ∨
        i = .stepWaitStay1 ∨ (∃ l, i = .stepEnd l) ∨ i = .readIdle ∨ ∃ pin, i = .init pin) ∧
    (t.currentLevel ≠ s.currentLevel → i.isStep = true) ∧
    (t.referenceLevel ≠ s.referenceLevel → ∃ l, i = .stepDelay l) ∧
    (t.pendingWord ≠ s.pendingWord →
      i = .stepWaitRise ∨ i = .stepWaitStay0 ∨ i = .stepWaitStay1 ∨ i = .readIdle ∨ ∃ pin, i = .init pin) ∧
    (t.bitsRemaining ≠ s.bitsRemaining →
      i = .stepWaitRise ∨ i = .stepWaitFall ∨ i = .readIdle ∨ ∃ pin, i = .init pin) ∧
    (t.tickCounter ≠ s.tickCounter →
      (i.isStep = true ∧ i ≠ .stepStandbyHold ∧ (∀ l, i ≠ .stepIdle l)) ∨ i = .readIdle ∨ ∃ pin, i = .init pin) ∧
    (t.initialised ≠ s.initialised → ∃ pin, i = .init pin) ∧
    (t.reads ≠ s.reads → i.isRead = true)

/-- The phase changes only along the edges E1 to E8 of R124, each under its condition, and wherever an edge's condition
holds it is taken. The conditions of E2, E5 and E6 rest on the spec's decisions D4 and D5. -/
def Obligations.PhaseChangesExactlyAlongTheListedEdges : Prop :=
  ∀ (i : Instr) (s t : State), exec i s = .next t →
    phaseEdge i s t.phase ∨ (t.phase = s.phase ∧ ∀ q, ¬ phaseEdge i s q)

/-- Every `Step`, in every phase, stores the complement of the raw level of the configured pin at its edge, as R110
says, and the pin is the one `inputPin` held before the event. -/
def Obligations.EveryStepSamplesAndInvertsThePin : Prop :=
  ∀ s : State, s.params.admissible = true → s.initialised = true → s.nextEdge.kind = .step →
    ∃ t, step s = .next t ∧ t.currentLevel = !decide (s.inputPin ∈ s.nextEdge.highPins)

/-- The block samples the level of its own pin and of no other (R21, R110; `Pin` and its levels in the model: log
entries 2 and 3). -/
def Obligations.OtherPinsAreNotSampled : Prop :=
  ∀ (s : State) (e : Edge) (pins : List Pin) (rest : List Edge), s.inputs = e :: rest →
    (e.rd && e.tick) = false → (s.inputPin ∈ pins ↔ s.inputPin ∈ e.highPins) →
    step s = step { s with inputs := { e with highPins := pins } :: rest }

/-- No rule reads the tick period (R190; its value is open, D15): a step is the same for every one. -/
def Obligations.TickPeriodIsNeverRead : Prop :=
  ∀ (s t : State) (d : Nat), 0 < d → step s = .next t →
    step { s with params := { s.params with tTickNanos := d } } =
      .next { t with params := { t.params with tTickNanos := d } }

/-! ## The results a consumer sees -/

/-- A `Read` returns `rd_data` of the state before it, and no other event returns anything (R9, R12; D9, D21). -/
def Obligations.OnlyReadsReturnAndTheyReturnRdData : Prop :=
  ∀ (i : Instr) (s t : State), exec i s = .next t →
    t.reads = if i.isRead then s.reads ++ [if s.phase = .idle then s.pendingWord else 0#16] else s.reads

/-- Of two `Read` events with no `Step` between them the second returns 0 (R142). -/
def Obligations.SecondOfTwoReadsReturnsZero : Prop :=
  ∀ (s : State) (p q : Pin) (rest : List Edge), s.params.admissible = true → s.initialised = true →
    s.inputs = readEdge p :: readEdge q :: rest →
    ∃ t, Sys2Proof.core.run 2 s = .next t ∧ t.inputs = rest ∧ t.phase ≠ .idle ∧
      t.reads = s.reads ++ [if s.phase = .idle then s.pendingWord else 0#16, 0#16]

/-- From a state of the invariant no event returns a negative value other than -1, or a value above
`2^NUM_BITS - 1` (R80). -/
def Obligations.ReturnedValuesAreZeroSentinelOrAWord : Prop :=
  ∀ (i : Instr) (s t : State), s.Inv → exec i s = .next t →
    ∀ v ∈ t.reads, v.toInt = -1 ∨ (0 ≤ v.toInt ∧ v.toInt ≤ 2 ^ s.params.numBits - 1)

/-- The re-armed state is the state after `Init` on the same pin, but for the value returned (R140 (d)). -/
def Obligations.RearmedStateIsTheStateAfterInit : Prop :=
  ∀ s : State, s.initialised = true → s.phase = .idle →
    ∃ t, exec .readIdle s = .next t ∧ exec (.init s.inputPin) s = .next { t with reads := s.reads }

/-- Neither level flag reaches a consumer before it is written again (R24, R25, R33): two states that differ only in
`currentLevel`, and outside `Waiting` in `referenceLevel`, step to two such states that have returned the same. -/
def Obligations.StaleLevelFlagsAreNeverObserved : Prop :=
  ∀ s s' t : State, s.SameToConsumer s' → step s = .next t →
    ∃ t', step s' = .next t' ∧ t.SameToConsumer t' ∧ t'.reads = t.reads

/-! ## Invariants -/

/-- Every step keeps the invariant of R30, R31 and R32, from every state that has it. -/
def Obligations.StepKeepsTheInvariant : Prop := ∀ s t : State, s.Inv → step s = .next t → t.Inv

/-- The state after reset has the invariant of R30 to R32. -/
def Obligations.ResetHasTheInvariant : Prop := State.reset.Inv

/-- `Init` leaves the invariant of R30 to R32, whatever the state it finds (R102, R180; D10, log entry 8): only the
parameters and the values already returned need be as they must. -/
def Obligations.InitRestoresTheInvariant : Prop :=
  ∀ (s : State) (pin : Pin), s.params.admissible = true →
    (∀ v ∈ s.reads, legalResult s.params.numBits v) → ∃ t, exec (.init pin) s = .next t ∧ t.Inv

/-- Instances share no state (R165): an event on one leaves every other as it was. -/
def Obligations.InstancesShareNothing : Prop :=
  ∀ (xs ys : List State) (k : Fin xs.length), stepInstance xs k = .next ys →
    (∃ t, step xs[k] = .next t ∧ ys[k.val]? = some t) ∧ ys.length = xs.length ∧ ∀ j, j ≠ k.val → ys[j]? = xs[j]?

/-! ## Counts in ticks (R126). Each names the decisions of the spec that it rests on: D4 and D5 are the reading of
"exceeds", D6 the level trigger, D18 the index of a bit. -/

/-- Counted from a trigger or a transition, the first `DELAY` ticks stay in `Delaying` whatever their levels, and the
next one captures its own level (R114, R115, R126; D4). -/
def Obligations.CaptureComesAtTickDelayPlusOne : Prop :=
  ∀ (s : State) (levels : List Bool) (last : Bool) (rest : List Edge),
    s.params.admissible = true → s.initialised = true → s.phase = .delaying → s.tickCounter = 0#8 →
    levels.length = s.params.delay → s.inputs = trace s.inputPin (ticks (levels ++ [last])) ++ rest →
    (∀ k, k ≤ s.params.delay →
      ∃ t, Sys2Proof.core.run k s = .next t ∧ t.phase = .delaying ∧ t.tickCounter.toNat = k) ∧
    Sys2Proof.core.run (s.params.delay + 1) s = .next
      { s with currentLevel := last, referenceLevel := last, tickCounter := 0#8, phase := .waiting, inputs := rest }

/-- After a capture, a level change is accepted at any of the first `TIMEOUT + 1` ticks, and its direction is the bit
(R75, R126, R192; D4), which is stored at the decremented index (R77, R116; D18). -/
def Obligations.TransitionIsAcceptedWithinTheWindow : Prop :=
  ∀ (s : State) (k : Nat) (rest : List Edge),
    s.params.admissible = true → s.initialised = true → s.phase = .waiting → s.tickCounter = 0#8 →
    k ≤ s.params.timeout →
    s.inputs = trace s.inputPin (ticks (List.replicate k s.referenceLevel ++ [!s.referenceLevel])) ++ rest →
    Sys2Proof.core.run (k + 1) s = .next
      { s with
        currentLevel := !s.referenceLevel
        bitsRemaining := s.bitsRemaining - 1#4
        tickCounter := 0#8
        pendingWord :=
          if s.referenceLevel then s.pendingWord
          else s.pendingWord ||| (1#16 <<< (s.bitsRemaining - 1#4).toNat)
        phase := if s.bitsRemaining - 1#4 = 0#4 then .delayingEnd else .delaying
        inputs := rest }

/-- After a capture, `TIMEOUT + 1` ticks without a level change time out, and the next `Read` returns -1, not the
partial word, and re-arms (R118, R140, R151, R152, R159; D4). -/
def Obligations.TimeoutIsReportedByTheNextRead : Prop :=
  ∀ (s : State) (pin : Pin) (rest : List Edge),
    s.params.admissible = true → s.initialised = true → s.phase = .waiting → s.tickCounter = 0#8 →
    s.inputs =
      trace s.inputPin (ticks (List.replicate (s.params.timeout + 1) s.referenceLevel)) ++ readEdge pin :: rest →
    (∀ k, k ≤ s.params.timeout → ∃ t, Sys2Proof.core.run k s = .next t ∧ t.phase = .waiting) ∧
    Sys2Proof.core.run (s.params.timeout + 1) s = .next
      { s with
        currentLevel := s.referenceLevel
        tickCounter := BitVec.ofNat 8 (s.params.timeout + 1)
        pendingWord := 0xFFFF#16
        phase := .idle
        inputs := readEdge pin :: rest } ∧
    Sys2Proof.core.run (s.params.timeout + 2) s = .next
      { s with
        currentLevel := s.referenceLevel
        tickCounter := 0#8
        bitsRemaining := BitVec.ofNat 4 s.params.numBits
        pendingWord := 0#16
        phase := .standby
        reads := s.reads ++ [0xFFFF#16]
        inputs := rest }

/-- After the last transition, `DELAY` ticks of any level stay in `DelayingEnd` and the next one releases the word,
unchanged (R119, R126; D5). -/
def Obligations.WordIsReleasedAtTickDelayPlusOne : Prop :=
  ∀ (s : State) (levels : List Bool) (last : Bool) (rest : List Edge),
    s.params.admissible = true → s.initialised = true → s.phase = .delayingEnd → s.tickCounter = 0#8 →
    levels.length = s.params.delay → s.inputs = trace s.inputPin (ticks (levels ++ [last])) ++ rest →
    (∀ k, k ≤ s.params.delay → ∃ t, Sys2Proof.core.run k s = .next t ∧ t.phase = .delayingEnd) ∧
    Sys2Proof.core.run (s.params.delay + 1) s = .next
      { s with
        currentLevel := last
        tickCounter := BitVec.ofNat 8 (s.params.delay + 1)
        phase := .idle
        inputs := rest }

/-- In `Idle` any number of ticks of any levels changes nothing but `currentLevel`: an unread result is never replaced
(R120, R161). -/
def Obligations.UnreadResultOutlastsAnyTicks : Prop :=
  ∀ (s : State) (levels : List Bool) (rest : List Edge),
    s.params.admissible = true → s.initialised = true → s.phase = .idle →
    s.inputs = trace s.inputPin (ticks levels) ++ rest →
    Sys2Proof.core.run levels.length s = .next
      { s with currentLevel := levels.getLastD s.currentLevel, inputs := rest }

/-- On an idle line the block stays in `Standby` and every `Read` returns 0, in whatever order ticks and reads come
(R112, R141, R181). -/
def Obligations.IdleLineReadsZero : Prop :=
  ∀ (s : State) (ts : List Token) (rest : List Edge),
    s.params.admissible = true → s.initialised = true → s.phase = .standby →
    (∀ x ∈ ts, x = .space ∨ x = .read) → s.inputs = trace s.inputPin ts ++ rest →
    ∃ t, Sys2Proof.core.run ts.length s = .next t ∧ t.phase = .standby ∧ t.pendingWord = s.pendingWord ∧
      t.bitsRemaining = s.bitsRemaining ∧ t.reads = s.reads ++ List.replicate (ts.count .read) 0#16 ∧ t.inputs = rest

/-- Under a mark that never ends, the `(DELAY + TIMEOUT + 3)`-th tick after the re-arm is a timeout and no earlier one
is, and the next `Read` returns -1 (R113, R114, R118, R140, R188; D4, and D6 for the trigger). -/
def Obligations.StuckMarkTimesOutAfterEachRearm : Prop :=
  ∀ (s : State) (pin : Pin) (rest : List Edge),
    s.params.admissible = true → s.initialised = true → s.phase = .standby →
    s.inputs = trace s.inputPin (markRun (s.params.delay + s.params.timeout + 3)) ++ readEdge pin :: rest →
    (∀ k, k < s.params.delay + s.params.timeout + 3 →
      ∃ t, Sys2Proof.core.run k s = .next t ∧ t.phase ≠ .idle) ∧
    Sys2Proof.core.run (s.params.delay + s.params.timeout + 4) s = .next
      { s with
        currentLevel := true
        referenceLevel := true
        tickCounter := 0#8
        bitsRemaining := BitVec.ofNat 4 s.params.numBits
        pendingWord := 0#16
        phase := .standby
        reads := s.reads ++ [0xFFFF#16]
        inputs := rest }

/-- A nominal frame of any word is decoded to that word (R75 to R77, R84, R85, R126, R191): from `Standby`, the frame
`FRAME(w)` with half-cells of `DELAY` ticks and two more ticks of space reach `Idle` at the last tick and not before,
and the `Read` after it returns `w` and re-arms. For `DELAY >= 2` and `TIMEOUT >= DELAY - 2`, as section 5 of
95_test_vectors.md says. It rests on the spec's decisions D4 and D5 (the counts), D6 (the trigger), D17 (the notation)
and D18 (the index of a bit). -/
def Obligations.NominalFrameDecodesToItsWord : Prop :=
  ∀ (s : State) (w : Word) (rest : List Edge),
    s.params.admissible = true → s.initialised = true → s.phase = .standby → s.pendingWord = 0#16 →
    s.bitsRemaining.toNat = s.params.numBits → 2 ≤ s.params.delay → s.params.delay ≤ s.params.timeout + 2 →
    w.toNat < 2 ^ s.params.numBits →
    s.inputs =
      trace s.inputPin (frame s.params.delay s.params.numBits w ++ spaceRun 2 ++ [.read]) ++ rest →
    (∃ t, Sys2Proof.core.run (2 * s.params.delay * (s.params.numBits + 1) + 1) s = .next t ∧
      t.phase = .delayingEnd) ∧
    (∃ t, Sys2Proof.core.run (2 * s.params.delay * (s.params.numBits + 1) + 2) s = .next t ∧
      t.phase = .idle ∧ t.pendingWord = w ∧ t.reads = s.reads) ∧
    ∃ t, Sys2Proof.core.run (2 * s.params.delay * (s.params.numBits + 1) + 3) s = .next t ∧
      t.phase = .standby ∧ t.reads = s.reads ++ [w] ∧ t.inputs = rest
end

