-- ==== Sys2Proof/Laws/Decode.lean ====
section
/-! SUPPORT. The fields of a packed word, the codes and their inverses. -/

namespace Sys2Proof

@[simp] theorem opField_packWord (op : BitVec 2) (ph : PhaseCode) (l r : Bool) : opField (packWord op ph l r) = op := by
  revert op ph l r; decide

@[simp] theorem phaseField_packWord (op : BitVec 2) (ph : PhaseCode) (l r : Bool) :
    phaseField (packWord op ph l r) = ph := by
  revert op ph l r; decide

@[simp] theorem levelField_packWord (op : BitVec 2) (ph : PhaseCode) (l r : Bool) :
    levelField (packWord op ph l r) = l := by
  revert op ph l r; decide

@[simp] theorem referenceField_packWord (op : BitVec 2) (ph : PhaseCode) (l r : Bool) :
    referenceField (packWord op ph l r) = r := by
  revert op ph l r; decide

@[simp] theorem Phase.ofCode_code (p : Phase) : Phase.ofCode p.code = some p := by cases p <;> rfl

@[simp] theorem EventKind.ofCode_code (k : EventKind) : EventKind.ofCode k.code = k := by cases k <;> rfl

/-- The fields `l` and `r` of a word that is no STEP select nothing: R73 examines neither (log entry 14). -/
theorem decode_packWord_of_not_step (k : EventKind) (ph : PhaseCode) (l r l' r' : Bool) (pin : Pin) (h : k ≠ .step) :
    decode (packWord k.code ph l r) pin = decode (packWord k.code ph l' r') pin := by
  cases k
  · simp [decode]
  · exact absurd rfl h
  · simp [decode]
  · simp [decode]

end Sys2Proof
end

