-- ==== Sys2Proof/Laws/State.lean ====
section
/-! SUPPORT. Each field of State after each update, so that no proof unfolds a record update. -/

namespace Sys2Proof.Machine

variable (s : State)

@[simp] theorem State.sample_params (l : Bool) : (s.sample l).params = s.params := rfl
@[simp] theorem State.sample_inputPin (l : Bool) : (s.sample l).inputPin = s.inputPin := rfl
@[simp] theorem State.sample_phase (l : Bool) : (s.sample l).phase = s.phase := rfl
@[simp] theorem State.sample_pendingWord (l : Bool) : (s.sample l).pendingWord = s.pendingWord := rfl
@[simp] theorem State.sample_currentLevel (l : Bool) : (s.sample l).currentLevel = l := rfl
@[simp] theorem State.sample_referenceLevel (l : Bool) : (s.sample l).referenceLevel = s.referenceLevel := rfl
@[simp] theorem State.sample_tickCounter (l : Bool) : (s.sample l).tickCounter = s.tickCounter := rfl
@[simp] theorem State.sample_bitsRemaining (l : Bool) : (s.sample l).bitsRemaining = s.bitsRemaining := rfl
@[simp] theorem State.sample_initialised (l : Bool) : (s.sample l).initialised = s.initialised := rfl
@[simp] theorem State.sample_inputs (l : Bool) : (s.sample l).inputs = s.inputs := rfl
@[simp] theorem State.sample_edgeCount (l : Bool) : (s.sample l).edgeCount = s.edgeCount := rfl
@[simp] theorem State.sample_reads (l : Bool) : (s.sample l).reads = s.reads := rfl

@[simp] theorem State.capture_params : s.capture.params = s.params := rfl
@[simp] theorem State.capture_inputPin : s.capture.inputPin = s.inputPin := rfl
@[simp] theorem State.capture_phase : s.capture.phase = s.phase := rfl
@[simp] theorem State.capture_pendingWord : s.capture.pendingWord = s.pendingWord := rfl
@[simp] theorem State.capture_currentLevel : s.capture.currentLevel = s.currentLevel := rfl
@[simp] theorem State.capture_referenceLevel : s.capture.referenceLevel = s.currentLevel := rfl
@[simp] theorem State.capture_tickCounter : s.capture.tickCounter = s.tickCounter := rfl
@[simp] theorem State.capture_bitsRemaining : s.capture.bitsRemaining = s.bitsRemaining := rfl
@[simp] theorem State.capture_initialised : s.capture.initialised = s.initialised := rfl
@[simp] theorem State.capture_inputs : s.capture.inputs = s.inputs := rfl
@[simp] theorem State.capture_edgeCount : s.capture.edgeCount = s.edgeCount := rfl
@[simp] theorem State.capture_reads : s.capture.reads = s.reads := rfl

@[simp] theorem State.enter_params (p : Phase) : (s.enter p).params = s.params := rfl
@[simp] theorem State.enter_inputPin (p : Phase) : (s.enter p).inputPin = s.inputPin := rfl
@[simp] theorem State.enter_phase (p : Phase) : (s.enter p).phase = p := rfl
@[simp] theorem State.enter_pendingWord (p : Phase) : (s.enter p).pendingWord = s.pendingWord := rfl
@[simp] theorem State.enter_currentLevel (p : Phase) : (s.enter p).currentLevel = s.currentLevel := rfl
@[simp] theorem State.enter_referenceLevel (p : Phase) : (s.enter p).referenceLevel = s.referenceLevel := rfl
@[simp] theorem State.enter_tickCounter (p : Phase) : (s.enter p).tickCounter = s.tickCounter := rfl
@[simp] theorem State.enter_bitsRemaining (p : Phase) : (s.enter p).bitsRemaining = s.bitsRemaining := rfl
@[simp] theorem State.enter_initialised (p : Phase) : (s.enter p).initialised = s.initialised := rfl
@[simp] theorem State.enter_inputs (p : Phase) : (s.enter p).inputs = s.inputs := rfl
@[simp] theorem State.enter_edgeCount (p : Phase) : (s.enter p).edgeCount = s.edgeCount := rfl
@[simp] theorem State.enter_reads (p : Phase) : (s.enter p).reads = s.reads := rfl

@[simp] theorem State.clearTicks_params : s.clearTicks.params = s.params := rfl
@[simp] theorem State.clearTicks_inputPin : s.clearTicks.inputPin = s.inputPin := rfl
@[simp] theorem State.clearTicks_phase : s.clearTicks.phase = s.phase := rfl
@[simp] theorem State.clearTicks_pendingWord : s.clearTicks.pendingWord = s.pendingWord := rfl
@[simp] theorem State.clearTicks_currentLevel : s.clearTicks.currentLevel = s.currentLevel := rfl
@[simp] theorem State.clearTicks_referenceLevel : s.clearTicks.referenceLevel = s.referenceLevel := rfl
@[simp] theorem State.clearTicks_tickCounter : s.clearTicks.tickCounter = 0#8 := rfl
@[simp] theorem State.clearTicks_bitsRemaining : s.clearTicks.bitsRemaining = s.bitsRemaining := rfl
@[simp] theorem State.clearTicks_initialised : s.clearTicks.initialised = s.initialised := rfl
@[simp] theorem State.clearTicks_inputs : s.clearTicks.inputs = s.inputs := rfl
@[simp] theorem State.clearTicks_edgeCount : s.clearTicks.edgeCount = s.edgeCount := rfl
@[simp] theorem State.clearTicks_reads : s.clearTicks.reads = s.reads := rfl

@[simp] theorem State.countTick_params : s.countTick.params = s.params := rfl
@[simp] theorem State.countTick_inputPin : s.countTick.inputPin = s.inputPin := rfl
@[simp] theorem State.countTick_phase : s.countTick.phase = s.phase := rfl
@[simp] theorem State.countTick_pendingWord : s.countTick.pendingWord = s.pendingWord := rfl
@[simp] theorem State.countTick_currentLevel : s.countTick.currentLevel = s.currentLevel := rfl
@[simp] theorem State.countTick_referenceLevel : s.countTick.referenceLevel = s.referenceLevel := rfl
@[simp] theorem State.countTick_tickCounter : s.countTick.tickCounter = s.tickCounter + 1#8 := rfl
@[simp] theorem State.countTick_bitsRemaining : s.countTick.bitsRemaining = s.bitsRemaining := rfl
@[simp] theorem State.countTick_initialised : s.countTick.initialised = s.initialised := rfl
@[simp] theorem State.countTick_inputs : s.countTick.inputs = s.inputs := rfl
@[simp] theorem State.countTick_edgeCount : s.countTick.edgeCount = s.edgeCount := rfl
@[simp] theorem State.countTick_reads : s.countTick.reads = s.reads := rfl

@[simp] theorem State.dropBit_params : s.dropBit.params = s.params := rfl
@[simp] theorem State.dropBit_inputPin : s.dropBit.inputPin = s.inputPin := rfl
@[simp] theorem State.dropBit_phase : s.dropBit.phase = s.phase := rfl
@[simp] theorem State.dropBit_pendingWord : s.dropBit.pendingWord = s.pendingWord := rfl
@[simp] theorem State.dropBit_currentLevel : s.dropBit.currentLevel = s.currentLevel := rfl
@[simp] theorem State.dropBit_referenceLevel : s.dropBit.referenceLevel = s.referenceLevel := rfl
@[simp] theorem State.dropBit_tickCounter : s.dropBit.tickCounter = s.tickCounter := rfl
@[simp] theorem State.dropBit_bitsRemaining : s.dropBit.bitsRemaining = s.bitsRemaining - 1#4 := rfl
@[simp] theorem State.dropBit_initialised : s.dropBit.initialised = s.initialised := rfl
@[simp] theorem State.dropBit_inputs : s.dropBit.inputs = s.inputs := rfl
@[simp] theorem State.dropBit_edgeCount : s.dropBit.edgeCount = s.edgeCount := rfl
@[simp] theorem State.dropBit_reads : s.dropBit.reads = s.reads := rfl

@[simp] theorem State.storeBit_params : s.storeBit.params = s.params := rfl
@[simp] theorem State.storeBit_inputPin : s.storeBit.inputPin = s.inputPin := rfl
@[simp] theorem State.storeBit_phase : s.storeBit.phase = s.phase := rfl
@[simp] theorem State.storeBit_pendingWord :
    s.storeBit.pendingWord = if s.currentLevel then setbit s.pendingWord s.bitsRemaining.toNat else s.pendingWord := rfl
@[simp] theorem State.storeBit_currentLevel : s.storeBit.currentLevel = s.currentLevel := rfl
@[simp] theorem State.storeBit_referenceLevel : s.storeBit.referenceLevel = s.referenceLevel := rfl
@[simp] theorem State.storeBit_tickCounter : s.storeBit.tickCounter = s.tickCounter := rfl
@[simp] theorem State.storeBit_bitsRemaining : s.storeBit.bitsRemaining = s.bitsRemaining := rfl
@[simp] theorem State.storeBit_initialised : s.storeBit.initialised = s.initialised := rfl
@[simp] theorem State.storeBit_inputs : s.storeBit.inputs = s.inputs := rfl
@[simp] theorem State.storeBit_edgeCount : s.storeBit.edgeCount = s.edgeCount := rfl
@[simp] theorem State.storeBit_reads : s.storeBit.reads = s.reads := rfl

@[simp] theorem State.takeTimeout_params : s.takeTimeout.params = s.params := rfl
@[simp] theorem State.takeTimeout_inputPin : s.takeTimeout.inputPin = s.inputPin := rfl
@[simp] theorem State.takeTimeout_phase : s.takeTimeout.phase = .idle := rfl
@[simp] theorem State.takeTimeout_pendingWord : s.takeTimeout.pendingWord = sentinel := rfl
@[simp] theorem State.takeTimeout_currentLevel : s.takeTimeout.currentLevel = s.currentLevel := rfl
@[simp] theorem State.takeTimeout_referenceLevel : s.takeTimeout.referenceLevel = s.referenceLevel := rfl
@[simp] theorem State.takeTimeout_tickCounter : s.takeTimeout.tickCounter = s.tickCounter := rfl
@[simp] theorem State.takeTimeout_bitsRemaining : s.takeTimeout.bitsRemaining = s.bitsRemaining := rfl
@[simp] theorem State.takeTimeout_initialised : s.takeTimeout.initialised = s.initialised := rfl
@[simp] theorem State.takeTimeout_inputs : s.takeTimeout.inputs = s.inputs := rfl
@[simp] theorem State.takeTimeout_edgeCount : s.takeTimeout.edgeCount = s.edgeCount := rfl
@[simp] theorem State.takeTimeout_reads : s.takeTimeout.reads = s.reads := rfl

@[simp] theorem State.rearm_params : s.rearm.params = s.params := rfl
@[simp] theorem State.rearm_inputPin : s.rearm.inputPin = s.inputPin := rfl
@[simp] theorem State.rearm_phase : s.rearm.phase = .standby := rfl
@[simp] theorem State.rearm_pendingWord : s.rearm.pendingWord = 0#16 := rfl
@[simp] theorem State.rearm_currentLevel : s.rearm.currentLevel = s.currentLevel := rfl
@[simp] theorem State.rearm_referenceLevel : s.rearm.referenceLevel = s.referenceLevel := rfl
@[simp] theorem State.rearm_tickCounter : s.rearm.tickCounter = 0#8 := rfl
@[simp] theorem State.rearm_bitsRemaining : s.rearm.bitsRemaining = BitVec.ofNat 4 s.params.numBits := rfl
@[simp] theorem State.rearm_initialised : s.rearm.initialised = s.initialised := rfl
@[simp] theorem State.rearm_inputs : s.rearm.inputs = s.inputs := rfl
@[simp] theorem State.rearm_edgeCount : s.rearm.edgeCount = s.edgeCount := rfl
@[simp] theorem State.rearm_reads : s.rearm.reads = s.reads := rfl

@[simp] theorem State.returnValue_params (v : Word) : (s.returnValue v).params = s.params := rfl
@[simp] theorem State.returnValue_inputPin (v : Word) : (s.returnValue v).inputPin = s.inputPin := rfl
@[simp] theorem State.returnValue_phase (v : Word) : (s.returnValue v).phase = s.phase := rfl
@[simp] theorem State.returnValue_pendingWord (v : Word) : (s.returnValue v).pendingWord = s.pendingWord := rfl
@[simp] theorem State.returnValue_currentLevel (v : Word) : (s.returnValue v).currentLevel = s.currentLevel := rfl
@[simp] theorem State.returnValue_referenceLevel (v : Word) :
    (s.returnValue v).referenceLevel = s.referenceLevel := rfl
@[simp] theorem State.returnValue_tickCounter (v : Word) : (s.returnValue v).tickCounter = s.tickCounter := rfl
@[simp] theorem State.returnValue_bitsRemaining (v : Word) : (s.returnValue v).bitsRemaining = s.bitsRemaining := rfl
@[simp] theorem State.returnValue_initialised (v : Word) : (s.returnValue v).initialised = s.initialised := rfl
@[simp] theorem State.returnValue_inputs (v : Word) : (s.returnValue v).inputs = s.inputs := rfl
@[simp] theorem State.returnValue_edgeCount (v : Word) : (s.returnValue v).edgeCount = s.edgeCount := rfl
@[simp] theorem State.returnValue_reads (v : Word) : (s.returnValue v).reads = s.reads ++ [v] := rfl

@[simp] theorem State.initialise_params (pin : Pin) : (s.initialise pin).params = s.params := rfl
@[simp] theorem State.initialise_inputPin (pin : Pin) : (s.initialise pin).inputPin = pin := rfl
@[simp] theorem State.initialise_phase (pin : Pin) : (s.initialise pin).phase = .standby := rfl
@[simp] theorem State.initialise_pendingWord (pin : Pin) : (s.initialise pin).pendingWord = 0#16 := rfl
@[simp] theorem State.initialise_currentLevel (pin : Pin) : (s.initialise pin).currentLevel = s.currentLevel := rfl
@[simp] theorem State.initialise_referenceLevel (pin : Pin) :
    (s.initialise pin).referenceLevel = s.referenceLevel := rfl
@[simp] theorem State.initialise_tickCounter (pin : Pin) : (s.initialise pin).tickCounter = 0#8 := rfl
@[simp] theorem State.initialise_bitsRemaining (pin : Pin) :
    (s.initialise pin).bitsRemaining = BitVec.ofNat 4 s.params.numBits := rfl
@[simp] theorem State.initialise_initialised (pin : Pin) : (s.initialise pin).initialised = true := rfl
@[simp] theorem State.initialise_inputs (pin : Pin) : (s.initialise pin).inputs = s.inputs := rfl
@[simp] theorem State.initialise_edgeCount (pin : Pin) : (s.initialise pin).edgeCount = s.edgeCount := rfl
@[simp] theorem State.initialise_reads (pin : Pin) : (s.initialise pin).reads = s.reads := rfl

@[simp] theorem State.consume_params : s.consume.params = s.params := rfl
@[simp] theorem State.consume_inputPin : s.consume.inputPin = s.inputPin := rfl
@[simp] theorem State.consume_phase : s.consume.phase = s.phase := rfl
@[simp] theorem State.consume_pendingWord : s.consume.pendingWord = s.pendingWord := rfl
@[simp] theorem State.consume_currentLevel : s.consume.currentLevel = s.currentLevel := rfl
@[simp] theorem State.consume_referenceLevel : s.consume.referenceLevel = s.referenceLevel := rfl
@[simp] theorem State.consume_tickCounter : s.consume.tickCounter = s.tickCounter := rfl
@[simp] theorem State.consume_bitsRemaining : s.consume.bitsRemaining = s.bitsRemaining := rfl
@[simp] theorem State.consume_initialised : s.consume.initialised = s.initialised := rfl
@[simp] theorem State.consume_inputs : s.consume.inputs = s.nextInputs := rfl
@[simp] theorem State.consume_edgeCount : s.consume.edgeCount = s.nextCount := rfl
@[simp] theorem State.consume_reads : s.consume.reads = s.reads := rfl

@[simp] theorem State.presenting_params (i : Instr) : (s.presenting i).params = s.params := rfl
@[simp] theorem State.presenting_inputPin (i : Instr) : (s.presenting i).inputPin = s.inputPin := rfl
@[simp] theorem State.presenting_phase (i : Instr) : (s.presenting i).phase = phaseFor s i := rfl
@[simp] theorem State.presenting_pendingWord (i : Instr) : (s.presenting i).pendingWord = s.pendingWord := rfl
@[simp] theorem State.presenting_currentLevel (i : Instr) : (s.presenting i).currentLevel = s.currentLevel := rfl
@[simp] theorem State.presenting_referenceLevel (i : Instr) :
    (s.presenting i).referenceLevel = referenceFor s i := rfl
@[simp] theorem State.presenting_tickCounter (i : Instr) : (s.presenting i).tickCounter = s.tickCounter := rfl
@[simp] theorem State.presenting_bitsRemaining (i : Instr) : (s.presenting i).bitsRemaining = s.bitsRemaining := rfl
@[simp] theorem State.presenting_initialised (i : Instr) : (s.presenting i).initialised = s.initialised := rfl
@[simp] theorem State.presenting_inputs (i : Instr) :
    (s.presenting i).inputs = edgeFor s.inputPin i :: s.inputs := rfl
@[simp] theorem State.presenting_edgeCount (i : Instr) : (s.presenting i).edgeCount = s.edgeCount := rfl
@[simp] theorem State.presenting_reads (i : Instr) : (s.presenting i).reads = s.reads := rfl

end Sys2Proof.Machine
end

