-- ==== Sys2Proof/Laws/Ops.lean ====
section
/-! SUPPORT. For each shared operation, once, everything it can do. -/

namespace Sys2Proof.Machine

/-- A bit of `setbit v i`: bit `i` is set and every other bit unchanged (R11). -/
theorem setbit_getLsbD (v : Word) (i j : Nat) (hj : j < 16) :
    (setbit v i).getLsbD j = (v.getLsbD j || decide (j = i)) := by
  have h1 : (1#16).getLsbD (j - i) = decide (j - i = 0) := by
    rw [BitVec.getLsbD_one]; simp
  simp only [setbit, BitVec.getLsbD_or, BitVec.getLsbD_shiftLeft, h1, hj]
  congr 1
  by_cases h : j < i
  · simp [h]; omega
  · simp [h]; omega

/-- `trigger` in full. -/
theorem State.trigger_eq (s : State) : s.trigger = { s with phase := .delaying, tickCounter := 0#8 } := rfl

/-- `delayArm` in full: a count, or the capture. -/
theorem State.delayArm_eq (s : State) :
    s.delayArm =
      if s.params.delay < (s.tickCounter + 1#8).toNat then
        { s with referenceLevel := s.currentLevel, tickCounter := 0#8, phase := .waiting }
      else { s with tickCounter := s.tickCounter + 1#8 } := by
  by_cases h : s.params.delay < (s.tickCounter + 1#8).toNat
  · rw [if_pos h]
    simp only [State.delayArm, State.exceeds, State.countTick_params, State.countTick_tickCounter, h, decide_true,
      if_true]
    rfl
  · rw [if_neg h]
    simp only [State.delayArm, State.exceeds, State.countTick_params, State.countTick_tickCounter, h, decide_false]
    rfl

/-- `waitArm` in full: a count, or the timeout. -/
theorem State.waitArm_eq (s : State) :
    s.waitArm =
      if s.params.timeout < (s.tickCounter + 1#8).toNat then
        { s with tickCounter := s.tickCounter + 1#8, pendingWord := sentinel, phase := .idle }
      else { s with tickCounter := s.tickCounter + 1#8 } := by
  by_cases h : s.params.timeout < (s.tickCounter + 1#8).toNat
  · rw [if_pos h]
    simp only [State.waitArm, State.exceeds, State.countTick_params, State.countTick_tickCounter, h, decide_true,
      if_true]
    rfl
  · rw [if_neg h]
    simp only [State.waitArm, State.exceeds, State.countTick_params, State.countTick_tickCounter, h, decide_false]
    rfl

/-- `endArm` in full: a count, and `Idle` at the last. -/
theorem State.endArm_eq (s : State) :
    s.endArm =
      if s.params.delay < (s.tickCounter + 1#8).toNat then
        { s with tickCounter := s.tickCounter + 1#8, phase := .idle }
      else { s with tickCounter := s.tickCounter + 1#8 } := by
  by_cases h : s.params.delay < (s.tickCounter + 1#8).toNat
  · rw [if_pos h]
    simp only [State.endArm, State.exceeds, State.countTick_params, State.countTick_tickCounter, h, decide_true,
      if_true]
    rfl
  · rw [if_neg h]
    simp only [State.endArm, State.exceeds, State.countTick_params, State.countTick_tickCounter, h, decide_false]
    rfl

/-- `acceptBit` in full: the index of the stored bit and the test for the last bit both use the decremented count. -/
theorem State.acceptBit_eq (s : State) :
    s.acceptBit =
      { s with
        bitsRemaining := s.bitsRemaining - 1#4
        tickCounter := 0#8
        pendingWord :=
          if s.currentLevel then setbit s.pendingWord (s.bitsRemaining - 1#4).toNat else s.pendingWord
        phase := if s.bitsRemaining - 1#4 = 0#4 then .delayingEnd else .delaying } := by
  by_cases h : s.bitsRemaining - 1#4 = 0#4
  · simp only [State.acceptBit, State.enter_bitsRemaining, State.storeBit_bitsRemaining,
      State.clearTicks_bitsRemaining, State.dropBit_bitsRemaining, h, if_true]
    simp only [State.enter, State.storeBit, State.clearTicks, State.dropBit, h]
  · simp only [State.acceptBit, State.enter_bitsRemaining, State.storeBit_bitsRemaining,
      State.clearTicks_bitsRemaining, State.dropBit_bitsRemaining, h, if_false]
    rfl

/-- The arm `Waiting` after a sample that differs from the reference is a transition. -/
theorem State.waitingArm_of_ne (s : State) (h : s.currentLevel ≠ s.referenceLevel) : s.waitingArm = s.acceptBit := by
  simp [State.waitingArm, State.transition, h]

/-- The arm `Waiting` after a sample that equals the reference only counts. -/
theorem State.waitingArm_of_eq (s : State) (h : s.currentLevel = s.referenceLevel) : s.waitingArm = s.waitArm := by
  simp [State.waitingArm, State.transition, h]

/-- `onEvent` gives a next state exactly where the block is initialised and the state presents the row, and that state
is the arm's. -/
theorem State.onEvent_next (s t : State) (ok : Bool) (arm : State → State) :
    s.onEvent ok arm = .next t ↔ s.initialised = true ∧ ok = true ∧ t = arm s := by
  unfold State.onEvent
  cases s.initialised <;> cases ok <;> simp [eq_comm]

/-- `onEvent` where it runs. -/
theorem State.onEvent_run (s : State) (ok : Bool) (arm : State → State) (hi : s.initialised = true)
    (hp : ok = true) : s.onEvent ok arm = .next (arm s) := by
  simp [State.onEvent, hi, hp]

/-- `onEvent` stops for one of two reasons, and for no other. -/
theorem State.onEvent_refused (s : State) (ok : Bool) (arm : State → State) (r : Refusal) :
    s.onEvent ok arm = .refused r ↔
      (s.initialised = false ∧ r = .beforeInit) ∨ (s.initialised = true ∧ ok = false ∧ r = .notPresented) := by
  unfold State.onEvent
  cases s.initialised <;> cases ok <;> simp [eq_comm]

/-- `build` gives an instance exactly for admissible parameters, and it is initialised on its pin. -/
theorem State.build_eq_some (p : Params) (pin : Pin) (s : State) :
    State.build p pin = some s ↔
      p.admissible = true ∧ s = ({ State.reset with params := p } : State).initialise pin := by
  unfold State.build
  cases p.admissible <;> simp [eq_comm]

end Sys2Proof.Machine
end

