-- ==== Sys2Proof/Laws/PerInstr.lean ====
section
/-! SUPPORT. Statements made per instruction. -/

namespace Sys2Proof.Laws.FitsRow

/-- The word written for a well-formed instruction is in the row of R73's table that the instruction stands for, and
that row is one of the table's. -/
def Statement (i : Instr) : Prop := i.wf = true → (rowOf i).holds (encodeWord i) = true ∧ rowOf i ∈ table

theorem nop : Statement .nop := fun _ => by decide
theorem stepStandbyHold : Statement .stepStandbyHold := fun _ => by decide
theorem stepStandbyTrig : Statement .stepStandbyTrig := fun _ => by decide
theorem stepDelay (level : Bool) : Statement (.stepDelay level) := fun _ => by revert level; decide
theorem stepWaitStay0 : Statement .stepWaitStay0 := fun _ => by decide
theorem stepWaitFall : Statement .stepWaitFall := fun _ => by decide
theorem stepWaitRise : Statement .stepWaitRise := fun _ => by decide
theorem stepWaitStay1 : Statement .stepWaitStay1 := fun _ => by decide
theorem stepEnd (level : Bool) : Statement (.stepEnd level) := fun _ => by revert level; decide
theorem stepIdle (level : Bool) : Statement (.stepIdle level) := fun _ => by revert level; decide
theorem readBusy (phase : Phase) : Statement (.readBusy phase) := by
  intro h
  cases phase
  · decide
  · decide
  · decide
  · decide
  · cases h
theorem readIdle : Statement .readIdle := fun _ => by decide
theorem init (pin : Pin) : Statement (.init pin) := fun _ => ⟨(by decide : (⟨0x60#7, 0x60#7⟩ : Row).holds 0x60#7 = true), List.mem_of_getElem? (i := 12) rfl⟩

end Sys2Proof.Laws.FitsRow
end

