-- ==== Sys2Proof/Laws/Step.lean ====
section
/-! SUPPORT. What a step can do, said once: where it comes from, and the equations of a run. -/

namespace Sys2Proof.Machine

/-- A step that gives a next state ran the fetched instruction, on admissible parameters. -/
theorem step_next (s t : State) (h : step s = .next t) :
    s.params.admissible = true ∧ ∃ i, s.fetch = .ok i ∧ exec i s.consume = .next t := by
  unfold step at h
  split at h
  · rename_i ha
    split at h
    · rename_i i hi
      exact ⟨ha, i, hi, h⟩
    · cases h
  · cases h

/-- The fields of the dispatch word of an event: its kind, the phase, the sampled level and the reference (R72). -/
theorem State.dispatchWord_fields (s : State) (e : Edge) :
    opField (s.dispatchWord e) = e.kind.code ∧ phaseField (s.dispatchWord e) = s.phase.code ∧
      levelField (s.dispatchWord e) = !e.pinRead s.inputPin ∧
      referenceField (s.dispatchWord e) = s.referenceLevel := by
  simp [State.dispatchWord, State.sampledLevel, logicalLevel]

/-- The pin of a tick edge is at the level the edge was made for. -/
@[simp] theorem tickEdge_pinRead (pin : Pin) (l : Bool) : (tickEdge pin l).pinRead pin = !l := by
  cases l <;> simp [tickEdge, Edge.pinRead]

@[simp] theorem tickEdge_kind (pin : Pin) (l : Bool) : (tickEdge pin l).kind = .step := rfl
@[simp] theorem readEdge_kind (pin : Pin) : (readEdge pin).kind = .read := rfl
@[simp] theorem initEdge_kind (pin : Pin) : (initEdge pin).kind = .init := rfl
@[simp] theorem quietEdge_kind (pin : Pin) : (quietEdge pin).kind = .nop := rfl
@[simp] theorem tickEdge_leftover (pin : Pin) (l : Bool) : (tickEdge pin l).leftover = [] := rfl
@[simp] theorem readEdge_leftover (pin : Pin) : (readEdge pin).leftover = [] := rfl
@[simp] theorem initEdge_leftover (pin : Pin) : (initEdge pin).leftover = [] := rfl
@[simp] theorem quietEdge_leftover (pin : Pin) : (quietEdge pin).leftover = [] := rfl

/-- A run of no steps. -/
theorem run_zero (s : State) : Sys2Proof.core.run 0 s = .next s := rfl

/-- A run begins with a step, on any machine. -/
theorem core_run_succ (M : Host.Core) (n : Nat) (s : M.State) :
    M.run (n + 1) s =
      match M.step s with
      | .next t => M.run n t
      | .fault f => .fault f
      | .refused r => .refused r := rfl

/-- A run whose first step gives a next state. -/
theorem run_succ_next (n : Nat) (s t : State) (h : step s = .next t) :
    Sys2Proof.core.run (n + 1) s = Sys2Proof.core.run n t := by
  have hs : Sys2Proof.core.step s = .next t := h
  rw [core_run_succ Sys2Proof.core n s, hs]

/-- A run whose first step is refused. -/
theorem run_succ_refused (n : Nat) (s : State) (r : Refusal) (h : step s = .refused r) :
    Sys2Proof.core.run (n + 1) s = .refused r := by
  have hs : Sys2Proof.core.step s = .refused r := h
  rw [core_run_succ Sys2Proof.core n s, hs]

/-- A run in two parts. -/
theorem run_add (m n : Nat) (s t : State) (h : Sys2Proof.core.run m s = .next t) :
    Sys2Proof.core.run (m + n) s = Sys2Proof.core.run n t := by
  induction m generalizing s with
  | zero => rw [run_zero] at h; cases h; rw [Nat.zero_add]
  | succ m ih =>
    rw [Nat.add_right_comm]
    cases hs : step s with
    | next u =>
      rw [run_succ_next m s u hs] at h
      rw [run_succ_next (m + n) s u hs]
      exact ih u h
    | fault f => cases f
    | refused r =>
      rw [run_succ_refused m s r hs] at h
      cases h

end Sys2Proof.Machine
end

