-- ==== Sys2Proof/Tests/Slice0.lean ====
section
/-! SUPPORT. The model's own tests: words written out from the spec's encodings, the single-event vectors of
95_test_vectors.md (the id of a vector stands in its comment), and a witness for the hypotheses of each statement. -/

namespace Sys2Proof.Tests

open Sys2Proof.Machine

/-- A state as 95_test_vectors.md writes it: phase, word, current and reference level, counter, bits left. -/
def st (p : Phase) (w : Word) (l r : Bool) (c : TickCount) (b : BitCount) : State :=
  { State.reset with
    phase := p, pendingWord := w, currentLevel := l, referenceLevel := r, tickCounter := c, bitsRemaining := b }

/-- The same, of an instance with other parameters. -/
def stWith (ps : Params) (p : Phase) (w : Word) (l r : Bool) (c : TickCount) (b : BitCount) : State :=
  { st p w l r c b with params := ps }

/-- The outcome is this next state. -/
def goesTo (o : Host.Outcome State Fault Refusal) (t : State) : Bool :=
  match o with
  | .next s => decide (s = t)
  | .fault _ => false
  | .refused _ => false

/-- The outcome is this refusal. -/
def stopsWith (o : Host.Outcome State Fault Refusal) (r : Refusal) : Bool :=
  match o with
  | .next _ => false
  | .fault _ => false
  | .refused q => decide (q = r)

/-! ## Well-formedness: each check refuses an ill-formed term -/

theorem test_wf_refuses_readBusy_in_idle : (Instr.readBusy .idle).wf = false := by decide
theorem test_wf_admits_readBusy_in_waiting : (Instr.readBusy .waiting).wf = true := by decide
theorem test_params_default_admissible : ({} : Params).admissible = true := by decide
theorem test_params_refuse_no_bits : ({ numBits := 0 } : Params).admissible = false := by decide
theorem test_params_refuse_sixteen_bits : ({ numBits := 16 } : Params).admissible = false := by decide
theorem test_params_refuse_delay_that_wraps : ({ delay := 255 } : Params).admissible = false := by decide
theorem test_params_refuse_timeout_that_wraps : ({ timeout := 255 } : Params).admissible = false := by decide
theorem test_params_refuse_no_period : ({ tTickNanos := 0 } : Params).admissible = false := by decide
theorem test_params_admit_the_bounds : ({ numBits := 15, delay := 254, timeout := 254 } : Params).admissible = true := by
  decide

/-! ## Decoding: one word of each row, bit by bit from the table of R73 (op, phase, l, r) -/

theorem test_decode_nop : decode 0b00_000_0_0#7 ⟨5⟩ = .ok .nop := by decide
theorem test_decode_nop_ignores_fields : decode 0b00_111_1_1#7 ⟨5⟩ = .ok .nop := by decide
theorem test_decode_standby_hold : decode 0b01_000_0_1#7 ⟨5⟩ = .ok .stepStandbyHold := by decide
theorem test_decode_standby_trig : decode 0b01_000_1_0#7 ⟨5⟩ = .ok .stepStandbyTrig := by decide
theorem test_decode_delay : decode 0b01_001_1_0#7 ⟨5⟩ = .ok (.stepDelay true) := by decide
theorem test_decode_delay_ignores_r : decode 0b01_001_0_1#7 ⟨5⟩ = .ok (.stepDelay false) := by decide
theorem test_decode_stay0 : decode 0b01_010_0_0#7 ⟨5⟩ = .ok .stepWaitStay0 := by decide
theorem test_decode_fall : decode 0b01_010_0_1#7 ⟨5⟩ = .ok .stepWaitFall := by decide
theorem test_decode_rise : decode 0b01_010_1_0#7 ⟨5⟩ = .ok .stepWaitRise := by decide
theorem test_decode_stay1 : decode 0b01_010_1_1#7 ⟨5⟩ = .ok .stepWaitStay1 := by decide
theorem test_decode_end : decode 0b01_011_1_0#7 ⟨5⟩ = .ok (.stepEnd true) := by decide
theorem test_decode_idle : decode 0b01_100_0_1#7 ⟨5⟩ = .ok (.stepIdle false) := by decide
theorem test_decode_read_busy : decode 0b10_011_0_0#7 ⟨5⟩ = .ok (.readBusy .delayingEnd) := by decide
theorem test_decode_read_idle : decode 0b10_100_1_1#7 ⟨5⟩ = .ok .readIdle := by decide
theorem test_decode_init : decode 0b11_101_0_1#7 ⟨5⟩ = .ok (.init ⟨5⟩) := by decide
theorem test_decode_refuses_step_in_phase_5 : decode 0b01_101_0_0#7 ⟨5⟩ = .error .reservedPhase := by decide
theorem test_decode_refuses_read_in_phase_7 : decode 0b10_111_0_0#7 ⟨5⟩ = .error .reservedPhase := by decide
theorem test_byte_with_bit_7_is_no_word : decodeByte 0xA0#8 ⟨0⟩ = .error .notADispatchWord := by decide
theorem test_table_word_pin_is_above_the_byte : decodeTableWord 16 0x0360 = some (.init ⟨3⟩) := by decide
theorem test_table_word_bits_above_nbits_are_zero : decodeTableWord 8 0x0360 = some (.init ⟨0⟩) := by decide
theorem test_encode_end : encodeWord (.stepEnd true) = 0x2E#7 := by decide

/-! ## Single events -/

-- VI2
theorem test_init_mid_frame : goesTo (exec (.init ⟨7⟩) (st .waiting 0x1900#16 false false 1 8))
    { st .standby 0#16 false false 0 13 with inputPin := ⟨7⟩ } = true := by decide
-- VI4
theorem test_init_takes_numBits : goesTo
    (exec (.init ⟨0⟩) (stWith { numBits := 1, delay := 1, timeout := 1 } .idle 1#16 true false 2 0))
    (stWith { numBits := 1, delay := 1, timeout := 1 } .standby 0#16 true false 0 1) = true := by decide
-- VN1
theorem test_nop : goesTo (exec .nop (st .waiting 0x1900#16 false false 1 8)) (st .waiting 0x1900#16 false false 1 8) =
    true := by decide
-- VS1
theorem test_standby_hold : goesTo (exec .stepStandbyHold (st .standby 0#16 true true 0 13))
    (st .standby 0#16 false true 0 13) = true := by decide
-- VS3
theorem test_standby_trig : goesTo (exec .stepStandbyTrig (st .standby 0#16 true true 0 13))
    (st .delaying 0#16 true true 0 13) = true := by decide
-- VS5
theorem test_delay_counts : goesTo (exec (.stepDelay false) (st .delaying 0x1000#16 true false 2 12))
    (st .delaying 0x1000#16 false false 3 12) = true := by decide
-- VS6
theorem test_delay_captures : goesTo (exec (.stepDelay true) (st .delaying 0x1000#16 false false 3 12))
    (st .waiting 0x1000#16 true true 0 12) = true := by decide
-- VS9
theorem test_rise_first_bit : goesTo (exec .stepWaitRise (st .waiting 0#16 false false 1 13))
    (st .delaying 0x1000#16 true false 0 12) = true := by decide
-- VS11
theorem test_rise_last_bit : goesTo (exec .stepWaitRise (st .waiting 0x1554#16 false false 1 1))
    (st .delayingEnd 0x1555#16 true false 0 0) = true := by decide
-- VS10
theorem test_fall_first_bit : goesTo (exec .stepWaitFall (st .waiting 0#16 true true 1 13))
    (st .delaying 0#16 false true 0 12) = true := by decide
-- VS12
theorem test_fall_last_bit : goesTo (exec .stepWaitFall (st .waiting 0x1974#16 true true 1 1))
    (st .delayingEnd 0x1974#16 false true 0 0) = true := by decide
-- VS14
theorem test_stay0_counts : goesTo (exec .stepWaitStay0 (st .waiting 0x1900#16 false false 0 8))
    (st .waiting 0x1900#16 false false 1 8) = true := by decide
-- VS16
theorem test_stay0_times_out : goesTo (exec .stepWaitStay0 (st .waiting 0x1900#16 false false 2 8))
    (st .idle 0xFFFF#16 false false 3 8) = true := by decide
-- VS15
theorem test_stay1_counts : goesTo (exec .stepWaitStay1 (st .waiting 0x1900#16 true true 1 8))
    (st .waiting 0x1900#16 true true 2 8) = true := by decide
-- VS17
theorem test_stay1_times_out : goesTo (exec .stepWaitStay1 (st .waiting 0x1F00#16 true true 2 8))
    (st .idle 0xFFFF#16 true true 3 8) = true := by decide
-- VS21
theorem test_end_counts : goesTo (exec (.stepEnd false) (st .delayingEnd 0x1555#16 true false 2 0))
    (st .delayingEnd 0x1555#16 false false 3 0) = true := by decide
-- VS22
theorem test_end_idles : goesTo (exec (.stepEnd true) (st .delayingEnd 0x1555#16 false false 3 0))
    (st .idle 0x1555#16 true false 4 0) = true := by decide
-- VS24
theorem test_idle_ignores_mark : goesTo (exec (.stepIdle true) (st .idle 0xFFFF#16 false false 3 8))
    (st .idle 0xFFFF#16 true false 3 8) = true := by decide
-- VR1
theorem test_read_idle_word : goesTo (exec .readIdle (st .idle 0x1555#16 false false 4 0))
    { st .standby 0#16 false false 0 13 with reads := [5461#16] } = true := by decide
-- VR2
theorem test_read_idle_sentinel : goesTo (exec .readIdle (st .idle 0xFFFF#16 false false 3 8))
    { st .standby 0#16 false false 0 13 with reads := [BitVec.ofInt 16 (-1)] } = true := by decide
-- VR8
theorem test_read_busy : goesTo (exec (.readBusy .delayingEnd) (st .delayingEnd 0x1555#16 true false 3 0))
    { st .delayingEnd 0x1555#16 true false 3 0 with reads := [0#16] } = true := by decide
-- R183
theorem test_step_before_init_refused :
    stopsWith (exec .stepStandbyHold { State.reset with initialised := false }) .beforeInit = true := by decide
-- R72: STEP.DELAY is no row of a state in Standby
theorem test_row_not_presented : stopsWith (exec (.stepDelay true) State.reset) .notPresented = true := by decide

/-! ## The step -/

/-- A state whose next edges are those of a trace. -/
def fed (s : State) (ts : List Token) : State := { s with inputs := trace s.inputPin ts }

-- VS2, through the dispatch word
theorem test_step_mark_triggers : goesTo (step (fed State.reset [.mark])) (st .delaying 0#16 true false 0 13) = true := by
  decide
-- VX1, first half: the Read of an edge with both strobes, its Step left for the next step
theorem test_step_read_goes_first : goesTo (step (fed (st .delayingEnd 0x1555#16 false false 3 0) [.readSpace]))
    { fed (st .delayingEnd 0x1555#16 false false 3 0) [.space] with reads := [0#16] } = true := by decide
theorem test_step_refuses_bad_parameters :
    stopsWith (step (fed { State.reset with params := { numBits := 0 } } [.mark])) .inadmissibleParams = true := by decide
theorem test_fetch_word_rise : goesTo (step (State.reset.withFetchWord 8 0x2A)) (st .delaying 0x1000#16 true false 0 12) =
    true := by decide
theorem test_fetch_word_read_busy :
    goesTo (step (State.reset.withFetchWord 8 0x48)) { st .waiting 0#16 false false 0 13 with reads := [0#16] } = true := by
  decide
theorem test_reset_is_built : State.build {} ⟨0⟩ = some State.reset := by decide
theorem test_rd_data_busy : (st .delayingEnd 0x1555#16 true false 3 0).rdData = 0#16 := by decide
-- R84: BIT0 with half-cells of 3 ticks
theorem test_bit_cell : bitCell 3 false = [.mark, .mark, .mark, .space, .space, .space] := by decide
-- R77: the earliest bit is the most significant
theorem test_frame_bits : frameBits 4 0b1000#16 = [true, false, false, false] := by decide

/-! ## Witnesses: a concrete state and operands that meet the hypotheses of a statement -/

/-- Before the first `Init`. -/
def raw : State := { State.reset with initialised := false }

theorem witness_DecodeOfEncodeIsTheInstruction : (Instr.readBusy .standby).wf = true := by decide
theorem witness_DecodedWordIsInTheRowOfItsInstruction :
    decode 0b01_001_1_1#7 ⟨0⟩ = .ok (.stepDelay true) ∧ (Instr.stepDelay true).isStep = true := by decide
theorem witness_ReservedWords_nop_and_init_with_phase_5 :
    opField 0b00_101_0_0#7 = 0#2 ∧ opField 0b11_101_0_0#7 = 3#2 ∧ 5 ≤ (phaseField 0b11_101_0_0#7).toNat := by decide
theorem witness_StepRunsTheDecodedInstruction :
    (fed State.reset [.space]).params.admissible = true ∧
      decode ((fed State.reset [.space]).dispatchWord (fed State.reset [.space]).nextEdge)
        (fed State.reset [.space]).nextEdge.pin = .ok .stepStandbyHold := by decide
theorem witness_StepStops_completes_init : (fed raw [.initialise]).params.admissible = true ∧
    (fed raw [.initialise]).nextEdge.kind = .init := by decide
theorem witness_StepStops_completes_live : (fed State.reset [.read]).params.admissible = true ∧
    (fed State.reset [.read]).initialised = true := by decide
theorem witness_StepStops_before_init : (fed raw [.read]).params.admissible = true ∧
    (fed raw [.read]).initialised = false ∧ (fed raw [.read]).nextEdge.kind = .read := by decide
theorem witness_StepStops_parameters :
    ({ State.reset with params := { timeout := 255 } } : State).params.admissible = false := by decide
theorem witness_PresentedInstructionIsTheOneTheStepRuns :
    Instr.stepWaitFall.wf = true ∧ State.reset.params.admissible = true := by decide
theorem witness_EventsOfAClockEdge_init : (fed raw [.initialise]).params.admissible = true ∧
    (fed raw [.initialise]).inputs = initEdge ⟨0⟩ :: [] ∧ (initEdge ⟨0⟩).rst = true := by decide
/-- An edge with every strobe set: `rst` alone counts. -/
def resetEdge : Edge := { rst := true, tick := true, rd := true, pin := ⟨6⟩, highPins := [] }
theorem witness_EventsOfAClockEdge_init_over_both_strobes :
    ({ st .idle 0x1555#16 true false 4 0 with inputs := [resetEdge] } : State).params.admissible = true ∧
      ({ st .idle 0x1555#16 true false 4 0 with inputs := [resetEdge] } : State).inputs = resetEdge :: [] ∧
      resetEdge.rst = true ∧ resetEdge.rd = true ∧ resetEdge.tick = true := by decide
-- R13: with rst set only Init occurs, and no half of the edge is left
theorem test_step_rst_alone_counts :
    goesTo (step { st .idle 0x1555#16 true false 4 0 with inputs := [resetEdge] })
      { st .standby 0#16 true false 0 13 with inputPin := ⟨6⟩ } = true := by decide
theorem witness_EventsOfAClockEdge_none :
    ({ State.reset with inputs := [quietEdge ⟨0⟩] } : State).params.admissible = true ∧
      (quietEdge ⟨0⟩).rst = false ∧ (quietEdge ⟨0⟩).rd = false ∧ (quietEdge ⟨0⟩).tick = false := by decide
theorem witness_EventsOfAClockEdge_read : (fed State.reset [.read]).inputs = readEdge ⟨0⟩ :: [] ∧
    (readEdge ⟨0⟩).rst = false ∧ (readEdge ⟨0⟩).rd = true ∧ (readEdge ⟨0⟩).tick = false := by decide
theorem witness_EventsOfAClockEdge_tick : (fed State.reset [.mark]).inputs = tickEdge ⟨0⟩ true :: [] ∧
    (tickEdge ⟨0⟩ true).rst = false ∧ (tickEdge ⟨0⟩ true).rd = false ∧ (tickEdge ⟨0⟩ true).tick = true := by decide
theorem witness_EventsOfAClockEdge_both :
    (fed State.reset [.readMark]).inputs = { tickEdge ⟨0⟩ true with rd := true } :: [] ∧
      (Token.edge ⟨0⟩ .readMark).rst = false ∧ (Token.edge ⟨0⟩ .readMark).rd = true ∧
      (Token.edge ⟨0⟩ .readMark).tick = true := by decide
theorem witness_ReadThenTickAtOneEdgeInIdle :
    (fed (st .idle 0x1555#16 false false 4 0) [.readMark]).params.admissible = true ∧
      (fed (st .idle 0x1555#16 false false 4 0) [.readMark]).initialised = true ∧
      (fed (st .idle 0x1555#16 false false 4 0) [.readMark]).phase = .idle ∧
      (fed (st .idle 0x1555#16 false false 4 0) [.readMark]).inputs =
        { tickEdge (fed (st .idle 0x1555#16 false false 4 0) [.readMark]).inputPin true with rd := true } :: [] := by decide
theorem witness_ReadThenTickAtOneEdgeInIdle_space :
    (fed (st .idle 0xFFFF#16 true true 3 13) [.readSpace]).params.admissible = true ∧
      (fed (st .idle 0xFFFF#16 true true 3 13) [.readSpace]).initialised = true ∧
      (fed (st .idle 0xFFFF#16 true true 3 13) [.readSpace]).phase = .idle ∧
      (fed (st .idle 0xFFFF#16 true true 3 13) [.readSpace]).inputs =
        { tickEdge (fed (st .idle 0xFFFF#16 true true 3 13) [.readSpace]).inputPin false with rd := true } :: [] := by
  decide
theorem witness_EdgeIsFreeWhereNoneIsWrittenDown : State.reset.inputs = [] := by decide
theorem witness_BuildRejects_rejected : State.build { numBits := 16 } ⟨0⟩ = none := by decide
theorem witness_BuildRejects_built :
    State.build { numBits := 15, delay := 254, timeout := 254 } ⟨4⟩ =
      some (stWith { numBits := 15, delay := 254, timeout := 254 } .standby 0#16 false false 0 15 |>.initialise ⟨4⟩) := by
  decide
theorem witness_Standby_rows : State.reset.initialised = true ∧ State.reset.phase = .standby := by decide
theorem witness_Delaying_below_and_at_the_limit :
    (st .delaying 0x1000#16 true false 2 12).phase = .delaying ∧ ¬ 3 < ((2 : TickCount) + 1#8).toNat ∧
      (st .delaying 0x1000#16 true false 3 12).phase = .delaying ∧ 3 < ((3 : TickCount) + 1#8).toNat ∧
      (st .delaying 0x1000#16 true false 3 12).initialised = true := by decide
theorem witness_Rise : (st .waiting 0#16 false false 1 13).initialised = true ∧
    (st .waiting 0#16 false false 1 13).phase = .waiting ∧ (st .waiting 0#16 false false 1 13).referenceLevel = false := by
  decide
theorem witness_Fall : (st .waiting 0#16 true true 1 13).initialised = true ∧
    (st .waiting 0#16 true true 1 13).phase = .waiting ∧ (st .waiting 0#16 true true 1 13).referenceLevel = true := by
  decide
theorem witness_Stay_below_and_at_the_limit :
    (st .waiting 0x1900#16 false false 1 8).phase = .waiting ∧ ¬ 2 < ((1 : TickCount) + 1#8).toNat ∧
      (st .waiting 0x1900#16 true true 2 8).phase = .waiting ∧ 2 < ((2 : TickCount) + 1#8).toNat ∧
      (st .waiting 0x1900#16 true true 2 8).initialised = true := by decide
theorem witness_DelayingEnd_below_and_at_the_limit :
    (st .delayingEnd 0x1555#16 true false 2 0).phase = .delayingEnd ∧ ¬ 3 < ((2 : TickCount) + 1#8).toNat ∧
      (st .delayingEnd 0x1555#16 true false 3 0).phase = .delayingEnd ∧ 3 < ((3 : TickCount) + 1#8).toNat ∧
      (st .delayingEnd 0x1555#16 true false 3 0).initialised = true := by decide
theorem witness_Idle_rows : (st .idle 0x1555#16 true false 4 0).initialised = true ∧
    (st .idle 0x1555#16 true false 4 0).phase = .idle := by decide
theorem witness_ReadInIdle_of_the_invariant : (st .idle 0x1FFF#16 true false 4 0).initialised = true ∧
    (st .idle 0x1FFF#16 true false 4 0).phase = .idle ∧ (st .idle 0x1FFF#16 true false 4 0).Inv :=
  ⟨rfl, rfl, by decide, fun _ => by decide, fun _ h => nomatch h⟩
theorem witness_IdleIgnoresTheTick_leaves :
    ∃ t, exec .readIdle (st .idle 0x1555#16 true false 4 0) = .next t ∧ t.phase ≠ .idle := ⟨_, rfl, by decide⟩
theorem witness_ReadWhileBusy : (st .waiting 0x1900#16 false false 1 8).initialised = true ∧
    (st .waiting 0x1900#16 false false 1 8).phase ≠ .idle := by decide
theorem witness_StepAndReadAreRefusedBeforeInit :
    (Instr.stepStandbyTrig.isStep = true ∧ Instr.readIdle.isRead = true) ∧ raw.initialised = false := by decide
theorem witness_RowRuns_presented : Instr.stepStandbyHold.wf = true ∧ Instr.stepStandbyHold.isStep = true ∧
    State.reset.initialised = true ∧ phaseFor State.reset .stepStandbyHold = State.reset.phase ∧
    referenceFor State.reset .stepStandbyHold = State.reset.referenceLevel := by decide
theorem witness_RowRuns_not_presented : Instr.readIdle.wf = true ∧ Instr.readIdle.isRead = true ∧
    ¬ (phaseFor State.reset .readIdle = State.reset.phase ∧
      referenceFor State.reset .readIdle = State.reset.referenceLevel) := by decide
theorem witness_EachElement_read :
    ∃ t, exec .readIdle (st .idle 0x1555#16 true false 4 0) = .next t ∧ t.pendingWord ≠ 0x1555#16 ∧
      t.bitsRemaining ≠ 0#4 ∧ t.tickCounter ≠ 4#8 ∧ t.reads ≠ [] := ⟨_, rfl, by decide⟩
theorem witness_EachElement_init : ∃ t, exec (.init ⟨9⟩) State.reset = .next t ∧ t.inputPin ≠ State.reset.inputPin :=
  ⟨_, rfl, by decide⟩
theorem witness_EachElement_initialised_and_phase :
    (∃ t, exec (.init ⟨0⟩) raw = .next t ∧ t.initialised ≠ raw.initialised) ∧
      ∃ t, exec .stepStandbyTrig State.reset = .next t ∧ t.phase ≠ State.reset.phase :=
  ⟨⟨_, rfl, by decide⟩, _, rfl, by decide⟩
theorem witness_EachElement_capture :
    ∃ t, exec (.stepDelay true) (st .delaying 0#16 false false 3 13) = .next t ∧ t.currentLevel ≠ false ∧
      t.referenceLevel ≠ false := ⟨_, rfl, by decide⟩
theorem witness_PhaseChanges : ∃ t, exec .stepStandbyTrig State.reset = .next t ∧ t.phase ≠ State.reset.phase :=
  ⟨_, rfl, by decide⟩
theorem witness_EveryStepSamples : (fed State.reset [.mark]).params.admissible = true ∧
    (fed State.reset [.mark]).initialised = true ∧ (fed State.reset [.mark]).nextEdge.kind = .step := by decide
theorem witness_OtherPinsAreNotSampled : (fed State.reset [.mark]).inputs = tickEdge ⟨0⟩ true :: [] ∧
    ((tickEdge ⟨0⟩ true).rd && (tickEdge ⟨0⟩ true).tick) = false ∧
    ((fed State.reset [.mark]).inputPin ∈ [(⟨8⟩ : Pin)] ↔
      (fed State.reset [.mark]).inputPin ∈ (tickEdge ⟨0⟩ true).highPins) := by decide
theorem witness_TickPeriodIsNeverRead : 0 < 1 ∧ ∃ t, step (fed State.reset [.mark]) = .next t := ⟨by decide, _, rfl⟩
theorem witness_OnlyReadsReturn : ∃ t, exec (.readBusy .standby) State.reset = .next t := ⟨_, rfl⟩
theorem witness_SecondOfTwoReadsReturnsZero :
    (fed (st .idle 0x1555#16 true false 4 0) [.read, .read]).params.admissible = true ∧
      (fed (st .idle 0x1555#16 true false 4 0) [.read, .read]).initialised = true ∧
      (fed (st .idle 0x1555#16 true false 4 0) [.read, .read]).inputs = readEdge ⟨0⟩ :: readEdge ⟨0⟩ :: [] := by decide
theorem witness_ReturnedValues_word : (st .idle 0x1FFF#16 true false 4 0).Inv ∧
    ∃ t, exec .readIdle (st .idle 0x1FFF#16 true false 4 0) = .next t :=
  ⟨⟨by decide, fun _ => by decide, fun _ h => nomatch h⟩, _, rfl⟩
theorem witness_ReturnedValues_sentinel : (st .idle 0xFFFF#16 true false 3 8).Inv ∧
    ∃ t, exec .readIdle (st .idle 0xFFFF#16 true false 3 8) = .next t :=
  ⟨⟨by decide, fun _ => by decide, fun _ h => nomatch h⟩, _, rfl⟩
theorem witness_StaleLevelFlags :
    (fed State.reset [.mark]).SameToConsumer { fed State.reset [.mark] with currentLevel := true, referenceLevel := true } ∧
      ∃ t, step (fed State.reset [.mark]) = .next t := ⟨⟨rfl, by decide⟩, _, rfl⟩
theorem witness_StepKeepsTheInvariant : (fed (st .waiting 0x1900#16 false false 2 8) [.space]).Inv ∧
    ∃ t, step (fed (st .waiting 0x1900#16 false false 2 8) [.space]) = .next t :=
  ⟨⟨by decide, fun _ => by decide, fun _ h => nomatch h⟩, _, rfl⟩
theorem witness_InitRestoresTheInvariant : (st .delayingEnd 0xFFFF#16 true true 200 9).params.admissible = true ∧
    ∀ v ∈ (st .delayingEnd 0xFFFF#16 true true 200 9).reads, legalResult 13 v :=
  ⟨by decide, fun _ h => nomatch h⟩
theorem witness_InstancesShareNothing :
    ∃ ys, stepInstance [fed State.reset [.mark], raw] ⟨0, by decide⟩ = .next ys := ⟨_, rfl⟩
theorem witness_Capture :
    (fed (st .delaying 0#16 true false 0 13) (ticks ([true, false, true] ++ [false]))).tickCounter = 0#8 ∧
      (fed (st .delaying 0#16 true false 0 13) (ticks ([true, false, true] ++ [false]))).params.admissible = true ∧
      (fed (st .delaying 0#16 true false 0 13) (ticks ([true, false, true] ++ [false]))).initialised = true ∧
      (fed (st .delaying 0#16 true false 0 13) (ticks ([true, false, true] ++ [false]))).phase = .delaying ∧
      [true, false, true].length = State.reset.params.delay ∧
      (fed (st .delaying 0#16 true false 0 13) (ticks ([true, false, true] ++ [false]))).inputs =
        trace ⟨0⟩ (ticks ([true, false, true] ++ [false])) ++ [] := by decide
theorem witness_Window_first_tick :
    (fed (st .waiting 0#16 false false 0 13) (ticks (List.replicate 0 false ++ [true]))).params.admissible = true ∧
      (fed (st .waiting 0#16 false false 0 13) (ticks (List.replicate 0 false ++ [true]))).phase = .waiting ∧
      0 ≤ State.reset.params.timeout ∧
      (fed (st .waiting 0#16 false false 0 13) (ticks (List.replicate 0 false ++ [true]))).inputs =
        trace ⟨0⟩ (ticks (List.replicate 0 false ++ [!false])) ++ [] := by decide
theorem witness_Window_last_tick :
    (fed (st .waiting 0#16 true true 0 13) (ticks (List.replicate 2 true ++ [false]))).params.admissible = true ∧
      (fed (st .waiting 0#16 true true 0 13) (ticks (List.replicate 2 true ++ [false]))).phase = .waiting ∧
      (fed (st .waiting 0#16 true true 0 13) (ticks (List.replicate 2 true ++ [false]))).initialised = true ∧
      2 ≤ State.reset.params.timeout ∧
      (fed (st .waiting 0#16 true true 0 13) (ticks (List.replicate 2 true ++ [false]))).inputs =
        trace ⟨0⟩ (ticks (List.replicate 2 true ++ [!true])) ++ [] := by decide
theorem witness_Timeout :
    (fed (st .waiting 0x1900#16 false false 0 8) [.space, .space, .space, .read]).params.admissible = true ∧
      (fed (st .waiting 0x1900#16 false false 0 8) [.space, .space, .space, .read]).initialised = true ∧
      (fed (st .waiting 0x1900#16 false false 0 8) [.space, .space, .space, .read]).phase = .waiting ∧
      (fed (st .waiting 0x1900#16 false false 0 8) [.space, .space, .space, .read]).tickCounter = 0#8 ∧
      (fed (st .waiting 0x1900#16 false false 0 8) [.space, .space, .space, .read]).inputs =
        trace ⟨0⟩ (ticks (List.replicate (2 + 1) false)) ++ readEdge ⟨0⟩ :: [] := by decide
theorem witness_Release :
    (fed (st .delayingEnd 0x1555#16 true false 0 0) (ticks [true, true, false, false])).params.admissible = true ∧
      (fed (st .delayingEnd 0x1555#16 true false 0 0) (ticks [true, true, false, false])).initialised = true ∧
      (fed (st .delayingEnd 0x1555#16 true false 0 0) (ticks [true, true, false, false])).phase = .delayingEnd ∧
      (fed (st .delayingEnd 0x1555#16 true false 0 0) (ticks [true, true, false, false])).tickCounter = 0#8 ∧
      (fed (st .delayingEnd 0x1555#16 true false 0 0) (ticks [true, true, false, false])).inputs =
        trace ⟨0⟩ (ticks ([true, true, false] ++ [false])) ++ [] := by decide
theorem witness_UnreadResult :
    (fed (st .idle 0x1555#16 true false 4 0) (ticks [true, false])).params.admissible = true ∧
      (fed (st .idle 0x1555#16 true false 4 0) (ticks [true, false])).initialised = true ∧
      (fed (st .idle 0x1555#16 true false 4 0) (ticks [true, false])).phase = .idle ∧
      (fed (st .idle 0x1555#16 true false 4 0) (ticks [true, false])).inputs = trace ⟨0⟩ (ticks [true, false]) ++ [] := by
  decide
theorem witness_IdleLine : (fed State.reset [.space, .read, .space]).params.admissible = true ∧
    (fed State.reset [.space, .read, .space]).initialised = true ∧
    (fed State.reset [.space, .read, .space]).phase = .standby ∧
    (∀ x ∈ [Token.space, .read, .space], x = .space ∨ x = .read) ∧
    (fed State.reset [.space, .read, .space]).inputs = trace ⟨0⟩ [.space, .read, .space] ++ [] := by decide
theorem witness_StuckMark : (fed State.reset (markRun 8 ++ [.read])).params.admissible = true ∧
    (fed State.reset (markRun 8 ++ [.read])).initialised = true ∧
    (fed State.reset (markRun 8 ++ [.read])).phase = .standby ∧
    (fed State.reset (markRun 8 ++ [.read])).inputs = trace ⟨0⟩ (markRun (3 + 2 + 3)) ++ readEdge ⟨0⟩ :: [] := by decide
/-- An instance of two bits in `Standby`, at the smallest `DELAY` and `TIMEOUT` that decode. -/
def small : State := stWith { numBits := 2, delay := 2, timeout := 0 } .standby 0#16 false false 0 2
theorem witness_Frame :
    (fed small (frame 2 2 0b10#16 ++ spaceRun 2 ++ [.read])).params.admissible = true ∧
      (fed small (frame 2 2 0b10#16 ++ spaceRun 2 ++ [.read])).initialised = true ∧
      (fed small (frame 2 2 0b10#16 ++ spaceRun 2 ++ [.read])).phase = .standby ∧
      (fed small (frame 2 2 0b10#16 ++ spaceRun 2 ++ [.read])).pendingWord = 0#16 ∧
      (fed small (frame 2 2 0b10#16 ++ spaceRun 2 ++ [.read])).bitsRemaining.toNat = small.params.numBits ∧
      2 ≤ small.params.delay ∧ small.params.delay ≤ small.params.timeout + 2 ∧
      (0b10#16).toNat < 2 ^ small.params.numBits ∧
      (fed small (frame 2 2 0b10#16 ++ spaceRun 2 ++ [.read])).inputs =
        trace ⟨0⟩ (frame 2 2 0b10#16 ++ spaceRun 2 ++ [.read]) ++ [] := by decide

end Sys2Proof.Tests
end

section
/-! SUPPORT and proofs for operation family 1, initialisation (spec/40_initialize.md). -/

namespace Sys2Proof.Machine

/-- `initialise` in full (R100). -/
theorem State.initialise_eq (s : State) (pin : Pin) :
    s.initialise pin =
      { s with
        inputPin := pin
        phase := .standby
        tickCounter := 0#8
        pendingWord := 0#16
        bitsRemaining := BitVec.ofNat 4 s.params.numBits
        initialised := true } := rfl

/-- `INIT` has no condition: unlike a STEP or READ row it completes in every state (R100, R102, R183). -/
@[simp] theorem exec_init (s : State) (pin : Pin) : exec (.init pin) s = .next (s.initialise pin) := rfl

/-- Settles O15: `INIT` runs `initialise` unconditionally, and the equation of `initialise` is also its frame. -/
theorem initStoresThePinAndClearsTheBlock : Obligations.InitStoresThePinAndClearsTheBlock := by
  intro s pin
  rw [exec_init, State.initialise_eq]

end Sys2Proof.Machine
end

section
/-! SUPPORT and proofs for operation family 2, the tick step (spec/41_step.md): which rows an event can reach, the arm
of a `Step` as one function of the phase it finds (R111), and the sample before it (R110). -/

namespace Sys2Proof.Machine

/-! ### The rows, as `exec` dispatches them -/

@[simp] theorem exec_nop (s : State) : exec .nop s = .next s := rfl

theorem exec_stepStandbyHold (s : State) :
    exec .stepStandbyHold s = s.onEvent (s.phase == .standby) fun s => s.sample false := rfl

theorem exec_stepStandbyTrig (s : State) :
    exec .stepStandbyTrig s = s.onEvent (s.phase == .standby) fun s => (s.sample true).trigger := rfl

theorem exec_stepDelay (level : Bool) (s : State) :
    exec (.stepDelay level) s = s.onEvent (s.phase == .delaying) fun s => (s.sample level).delayArm := rfl

theorem exec_stepWaitStay0 (s : State) :
    exec .stepWaitStay0 s =
      s.onEvent (s.phase == .waiting && s.referenceLevel == false) fun s => (s.sample false).waitingArm := rfl

theorem exec_stepWaitFall (s : State) :
    exec .stepWaitFall s =
      s.onEvent (s.phase == .waiting && s.referenceLevel == true) fun s => (s.sample false).waitingArm := rfl

theorem exec_stepWaitRise (s : State) :
    exec .stepWaitRise s =
      s.onEvent (s.phase == .waiting && s.referenceLevel == false) fun s => (s.sample true).waitingArm := rfl

theorem exec_stepWaitStay1 (s : State) :
    exec .stepWaitStay1 s =
      s.onEvent (s.phase == .waiting && s.referenceLevel == true) fun s => (s.sample true).waitingArm := rfl

theorem exec_stepEnd (level : Bool) (s : State) :
    exec (.stepEnd level) s = s.onEvent (s.phase == .delayingEnd) fun s => (s.sample level).endArm := rfl

theorem exec_stepIdle (level : Bool) (s : State) :
    exec (.stepIdle level) s = s.onEvent (s.phase == .idle) fun s => s.sample level := rfl

theorem exec_readBusy (p : Phase) (s : State) :
    exec (.readBusy p) s = s.onEvent (s.phase == p && p != .idle) fun s => s.returnValue 0#16 := rfl

theorem exec_readIdle (s : State) :
    exec .readIdle s = s.onEvent (s.phase == .idle) fun s => (s.returnValue s.pendingWord).rearm := rfl

/-! ### Where a row runs -/

/-- Every STEP and READ row is handed over by `onEvent`, and the row's condition is that it is well formed and that the
state holds the phase and the reference level which the row examines (R72, R73). -/
theorem exec_eq_onEvent (i : Instr) (s : State) (h : i.isStep = true ∨ i.isRead = true) :
    ∃ ok arm, exec i s = s.onEvent ok arm ∧
      (ok = true ↔ i.wf = true ∧ s.phase = phaseFor s i ∧ s.referenceLevel = referenceFor s i) := by
  cases i with
  | nop => simp [Instr.isStep, Instr.isRead] at h
  | init pin => simp [Instr.isStep, Instr.isRead] at h
  | stepStandbyHold => exact ⟨_, _, exec_stepStandbyHold s, by simp [Instr.wf, phaseFor, referenceFor]⟩
  | stepStandbyTrig => exact ⟨_, _, exec_stepStandbyTrig s, by simp [Instr.wf, phaseFor, referenceFor]⟩
  | stepDelay level => exact ⟨_, _, exec_stepDelay level s, by simp [Instr.wf, phaseFor, referenceFor]⟩
  | stepWaitStay0 => exact ⟨_, _, exec_stepWaitStay0 s, by simp [Instr.wf, phaseFor, referenceFor]⟩
  | stepWaitFall => exact ⟨_, _, exec_stepWaitFall s, by simp [Instr.wf, phaseFor, referenceFor]⟩
  | stepWaitRise => exact ⟨_, _, exec_stepWaitRise s, by simp [Instr.wf, phaseFor, referenceFor]⟩
  | stepWaitStay1 => exact ⟨_, _, exec_stepWaitStay1 s, by simp [Instr.wf, phaseFor, referenceFor]⟩
  | stepEnd level => exact ⟨_, _, exec_stepEnd level s, by simp [Instr.wf, phaseFor, referenceFor]⟩
  | stepIdle level => exact ⟨_, _, exec_stepIdle level s, by simp [Instr.wf, phaseFor, referenceFor]⟩
  | readBusy p => exact ⟨_, _, exec_readBusy p s, by simp [Instr.wf, phaseFor, referenceFor, and_comm]⟩
  | readIdle => exact ⟨_, _, exec_readIdle s, by simp [Instr.wf, phaseFor, referenceFor]⟩

/-- An instruction that completes is well formed and presented by the state: NOP and INIT examine nothing, and the other
rows are refused elsewhere. -/
theorem presented_of_exec_next (i : Instr) (s t : State) (h : exec i s = .next t) :
    i.wf = true ∧ s.phase = phaseFor s i ∧ s.referenceLevel = referenceFor s i := by
  by_cases hrow : i.isStep = true ∨ i.isRead = true
  · obtain ⟨ok, arm, hexec, hok⟩ := exec_eq_onEvent i s hrow
    rw [hexec, State.onEvent_next] at h
    obtain ⟨-, hpresented, -⟩ := h
    exact hok.1 hpresented
  · cases i with
    | nop => exact ⟨rfl, rfl, rfl⟩
    | init pin => exact ⟨rfl, rfl, rfl⟩
    | _ => simp [Instr.isStep, Instr.isRead] at hrow

/-- The four kinds of event that a state in `Idle` presents (R72, R73). -/
theorem eq_of_presented_in_idle (i : Instr) (s : State) (hwf : i.wf = true) (hi : phaseFor s i = .idle) :
    i = .nop ∨ (∃ level, i = .stepIdle level) ∨ i = .readIdle ∨ ∃ pin, i = .init pin := by
  cases i with
  | nop => simp
  | stepIdle level => simp
  | readIdle => simp
  | init pin => simp
  | readBusy p =>
    obtain rfl : p = .idle := hi
    cases hwf
  | _ => cases hi

/-! ### What the arms do to the sample -/

@[simp] theorem State.trigger_currentLevel (s : State) : s.trigger.currentLevel = s.currentLevel := rfl

@[simp] theorem State.delayArm_currentLevel (s : State) : s.delayArm.currentLevel = s.currentLevel := by
  rw [State.delayArm_eq]; split <;> rfl

@[simp] theorem State.endArm_currentLevel (s : State) : s.endArm.currentLevel = s.currentLevel := by
  rw [State.endArm_eq]; split <;> rfl

@[simp] theorem State.waitArm_currentLevel (s : State) : s.waitArm.currentLevel = s.currentLevel := by
  rw [State.waitArm_eq]; split <;> rfl

@[simp] theorem State.acceptBit_currentLevel (s : State) : s.acceptBit.currentLevel = s.currentLevel := by
  rw [State.acceptBit_eq]

@[simp] theorem State.waitingArm_currentLevel (s : State) : s.waitingArm.currentLevel = s.currentLevel := by
  by_cases h : s.currentLevel = s.referenceLevel
  · rw [State.waitingArm_of_eq s h, State.waitArm_currentLevel]
  · rw [State.waitingArm_of_ne s h, State.acceptBit_currentLevel]

/-- The arm of a `Step`, chosen by the phase, on a state whose sample is already taken (R111). -/
def State.stepArm (s : State) : State :=
  match s.phase with
  | .standby => if s.currentLevel then s.trigger else s
  | .delaying => s.delayArm
  | .waiting => s.waitingArm
  | .delayingEnd => s.endArm
  | .idle => s

/-- No arm writes the sample. -/
@[simp] theorem State.stepArm_currentLevel (s : State) : s.stepArm.currentLevel = s.currentLevel := by
  cases hp : s.phase with
  | standby => simp only [State.stepArm, hp]; split <;> simp
  | delaying => simp [State.stepArm, hp]
  | waiting => simp [State.stepArm, hp]
  | delayingEnd => simp [State.stepArm, hp]
  | idle => simp [State.stepArm, hp]

/-- The row that the table picks for a `Step` samples, and then runs the arm of the phase it finds: the nine STEP rows
together are R110 followed by R111. -/
theorem exec_decodeStep (s : State) (level : Bool) (hi : s.initialised = true) :
    exec (decodeStep s.phase level s.referenceLevel) s = .next (s.sample level).stepArm := by
  cases hp : s.phase with
  | standby =>
    cases level with
    | false => simp [decodeStep, exec_stepStandbyHold, State.onEvent_run, hi, hp, State.stepArm]
    | true => simp [decodeStep, exec_stepStandbyTrig, State.onEvent_run, hi, hp, State.stepArm]
  | delaying => simp [decodeStep, exec_stepDelay, State.onEvent_run, hi, hp, State.stepArm]
  | waiting =>
    cases level <;> cases hr : s.referenceLevel
    · simp [decodeStep, exec_stepWaitStay0, State.onEvent_run, hi, hp, hr, State.stepArm]
    · simp [decodeStep, exec_stepWaitFall, State.onEvent_run, hi, hp, hr, State.stepArm]
    · simp [decodeStep, exec_stepWaitRise, State.onEvent_run, hi, hp, hr, State.stepArm]
    · simp [decodeStep, exec_stepWaitStay1, State.onEvent_run, hi, hp, hr, State.stepArm]
  | delayingEnd => simp [decodeStep, exec_stepEnd, State.onEvent_run, hi, hp, State.stepArm]
  | idle => simp [decodeStep, exec_stepIdle, State.onEvent_run, hi, hp, State.stepArm]

/-! ### The step of a tick -/

/-- The row of a `Step` event: the phase and the reference come from the state, the level from the pin (R72, R73). -/
theorem State.fetch_of_step (s : State) (hk : s.nextEdge.kind = .step) :
    s.fetch = .ok (decodeStep s.phase (s.sampledLevel s.nextEdge) s.referenceLevel) := by
  simp [State.fetch, State.dispatchWord, decode, hk]

/-- A step runs the instruction it fetches, on the state with the event taken (R8). -/
theorem step_of_fetch (s : State) (i : Instr) (ha : s.params.admissible = true) (hf : s.fetch = .ok i) :
    step s = exec i s.consume := by
  simp [step, ha, hf]

/-- The step of a tick in full: take the event, sample the pin, run the arm of the phase (R110, R111). -/
theorem step_of_tick (s : State) (ha : s.params.admissible = true) (hi : s.initialised = true)
    (hk : s.nextEdge.kind = .step) :
    step s = .next (s.consume.sample (s.sampledLevel s.nextEdge)).stepArm := by
  rw [step_of_fetch s _ ha (s.fetch_of_step hk)]
  exact exec_decodeStep s.consume (s.sampledLevel s.nextEdge) hi

/-- Settles O31: the step of a tick samples before its arm runs (`step_of_tick`), and no arm writes the sample. -/
theorem everyStepSamplesAndInvertsThePin : Obligations.EveryStepSamplesAndInvertsThePin := by
  intro s ha hi hk
  refine ⟨_, step_of_tick s ha hi hk, ?_⟩
  rw [State.stepArm_currentLevel, State.sample_currentLevel]
  rfl

/-- Settles O17: the row is presented in `Standby`, and its arm is the sample of a space alone. -/
theorem standbyHoldsOnASpace : Obligations.StandbyHoldsOnASpace := by
  intro s hi hp
  rw [exec_stepStandbyHold, State.onEvent_run s _ _ hi (by simp [hp])]
  rfl

/-- Settles O24: the row is presented in `Idle` and its arm is the sample alone; of the other events that `Idle`
presents, NOP writes nothing. -/
theorem idleIgnoresTheTick : Obligations.IdleIgnoresTheTick := by
  intro s hi hp
  have hidle (level : Bool) : exec (.stepIdle level) s = .next (s.sample level) := by
    rw [exec_stepIdle, State.onEvent_run s _ _ hi (by simp [hp])]
  refine ⟨hidle, fun i t h ht => ?_⟩
  obtain ⟨hwf, hphase, -⟩ := presented_of_exec_next i s t h
  obtain rfl | ⟨level, rfl⟩ | hread | hinit := eq_of_presented_in_idle i s hwf (hphase.symm.trans hp)
  · cases h
    exact absurd hp ht
  · cases (hidle level).symm.trans h
    exact absurd hp ht
  · exact .inl hread
  · exact .inr hinit

end Sys2Proof.Machine
end

section
/-! SUPPORT. Runs of ticks, for every family that counts them: the effect of one tick and of a list of ticks on the
state, apart from the inputs they are taken from, and the phases that only count (R114, R115, R118, R119). -/

namespace Sys2Proof.Machine

/-! ### Parameters -/

/-- The bounds of R6, one for each parameter that a rule reads. -/
theorem bounds_of_admissible (p : Params) (h : p.admissible = true) :
    1 ≤ p.numBits ∧ p.numBits ≤ 15 ∧ p.delay ≤ 254 ∧ p.timeout ≤ 254 := by
  simp only [Params.admissible, Bool.and_eq_true, decide_eq_true_eq] at h
  omega

/-! ### The first edge that is written down -/

/-- The state with other edges to come. -/
def State.withInputs (s : State) (edges : List Edge) : State := { s with inputs := edges }

section
variable (s : State) (edges : List Edge)

@[simp] theorem State.withInputs_params : (s.withInputs edges).params = s.params := rfl
@[simp] theorem State.withInputs_inputPin : (s.withInputs edges).inputPin = s.inputPin := rfl
@[simp] theorem State.withInputs_phase : (s.withInputs edges).phase = s.phase := rfl
@[simp] theorem State.withInputs_pendingWord : (s.withInputs edges).pendingWord = s.pendingWord := rfl
@[simp] theorem State.withInputs_currentLevel : (s.withInputs edges).currentLevel = s.currentLevel := rfl
@[simp] theorem State.withInputs_referenceLevel : (s.withInputs edges).referenceLevel = s.referenceLevel := rfl
@[simp] theorem State.withInputs_tickCounter : (s.withInputs edges).tickCounter = s.tickCounter := rfl
@[simp] theorem State.withInputs_bitsRemaining : (s.withInputs edges).bitsRemaining = s.bitsRemaining := rfl
@[simp] theorem State.withInputs_initialised : (s.withInputs edges).initialised = s.initialised := rfl
@[simp] theorem State.withInputs_inputs : (s.withInputs edges).inputs = edges := rfl
@[simp] theorem State.withInputs_edgeCount : (s.withInputs edges).edgeCount = s.edgeCount := rfl
@[simp] theorem State.withInputs_reads : (s.withInputs edges).reads = s.reads := rfl
@[simp] theorem State.withInputs_withInputs (edges' : List Edge) :
    (s.withInputs edges).withInputs edges' = s.withInputs edges' := rfl

theorem State.ite_withInputs (p : Prop) [Decidable p] (t : State) :
    (if p then s else t).withInputs edges = if p then s.withInputs edges else t.withInputs edges :=
  apply_ite (State.withInputs · edges) p s t

end

theorem State.nextEdge_of_inputs {s : State} {e : Edge} {rest : List Edge} (h : s.inputs = e :: rest) :
    s.nextEdge = e := by
  simp [State.nextEdge, h]

/-- Taking an edge that is written down draws no free one. -/
theorem State.consume_of_inputs {s : State} {e : Edge} {rest : List Edge} (h : s.inputs = e :: rest) :
    s.consume = s.withInputs (e.leftover ++ rest) := by
  simp [State.consume, State.nextInputs, State.nextCount, State.nextEdge, h, State.withInputs]

/-! ### One tick -/

/-- The effect of a `Step` at a logical level on everything but the inputs (R110, R111). -/
def State.tick (s : State) (level : Bool) : State := (s.sample level).stepArm

/-- The step of a tick that is written down is `tick`. -/
theorem step_of_tickEdge {s : State} {level : Bool} {rest : List Edge} (ha : s.params.admissible = true)
    (hi : s.initialised = true) (hin : s.inputs = tickEdge s.inputPin level :: rest) :
    step s = .next ((s.withInputs rest).tick level) := by
  have hnext := State.nextEdge_of_inputs hin
  rw [step_of_tick s ha hi (by rw [hnext, tickEdge_kind]), hnext, State.consume_of_inputs hin]
  simp [State.sampledLevel, logicalLevel, State.tick]

theorem State.tick_of_standby_space {s : State} (hp : s.phase = .standby) :
    s.tick false = { s with currentLevel := false } := by
  simp [State.tick, State.stepArm, hp, State.sample]

theorem State.tick_of_standby_mark {s : State} (hp : s.phase = .standby) :
    s.tick true = { s with currentLevel := true, phase := .delaying, tickCounter := 0#8 } := by
  simp [State.tick, State.stepArm, hp, State.sample, State.trigger_eq]

theorem State.tick_of_delaying {s : State} (level : Bool) (hp : s.phase = .delaying) :
    s.tick level =
      if s.params.delay < (s.tickCounter + 1#8).toNat then
        { s with currentLevel := level, referenceLevel := level, tickCounter := 0#8, phase := .waiting }
      else { s with currentLevel := level, tickCounter := s.tickCounter + 1#8 } := by
  simp only [State.tick, State.stepArm, State.sample_phase, hp, State.delayArm_eq]
  rfl

theorem State.tick_of_delayingEnd {s : State} (level : Bool) (hp : s.phase = .delayingEnd) :
    s.tick level =
      if s.params.delay < (s.tickCounter + 1#8).toNat then
        { s with currentLevel := level, tickCounter := s.tickCounter + 1#8, phase := .idle }
      else { s with currentLevel := level, tickCounter := s.tickCounter + 1#8 } := by
  simp only [State.tick, State.stepArm, State.sample_phase, hp, State.endArm_eq]
  rfl

/-- No transition (R118). -/
theorem State.tick_of_waiting_stay {s : State} (hp : s.phase = .waiting) :
    s.tick s.referenceLevel =
      if s.params.timeout < (s.tickCounter + 1#8).toNat then
        { s with
          currentLevel := s.referenceLevel
          tickCounter := s.tickCounter + 1#8
          pendingWord := sentinel
          phase := .idle }
      else { s with currentLevel := s.referenceLevel, tickCounter := s.tickCounter + 1#8 } := by
  have harm : s.tick s.referenceLevel = (s.sample s.referenceLevel).waitingArm := by
    simp [State.tick, State.stepArm, hp]
  rw [harm, State.waitingArm_of_eq _ rfl, State.waitArm_eq]
  rfl

/-- A transition (R116, R117): the new level is the bit. -/
theorem State.tick_of_waiting_change {s : State} {level : Bool} (hp : s.phase = .waiting)
    (hl : level ≠ s.referenceLevel) :
    s.tick level =
      { s with
        currentLevel := level
        bitsRemaining := s.bitsRemaining - 1#4
        tickCounter := 0#8
        pendingWord := if level then setbit s.pendingWord (s.bitsRemaining - 1#4).toNat else s.pendingWord
        phase := if s.bitsRemaining - 1#4 = 0#4 then .delayingEnd else .delaying } := by
  have harm : s.tick level = (s.sample level).waitingArm := by simp [State.tick, State.stepArm, hp]
  rw [harm, State.waitingArm_of_ne _ hl, State.acceptBit_eq]
  rfl

theorem State.tick_of_idle {s : State} (level : Bool) (hp : s.phase = .idle) :
    s.tick level = { s with currentLevel := level } := by
  simp [State.tick, State.stepArm, hp, State.sample]

/-- The frame of a tick: it writes six of the elements of DecoderState, and neither the pin nor the parameters nor any
field of the model's own (R29). -/
theorem State.tick_frame (s : State) (level : Bool) :
    s.tick level =
      { s with
        phase := (s.tick level).phase
        pendingWord := (s.tick level).pendingWord
        currentLevel := (s.tick level).currentLevel
        referenceLevel := (s.tick level).referenceLevel
        tickCounter := (s.tick level).tickCounter
        bitsRemaining := (s.tick level).bitsRemaining } := by
  cases hp : s.phase with
  | standby =>
    cases level with
    | false => rw [State.tick_of_standby_space hp]
    | true => rw [State.tick_of_standby_mark hp]
  | delaying => rw [State.tick_of_delaying level hp]; split <;> rfl
  | waiting =>
    by_cases hl : level = s.referenceLevel
    · subst hl
      rw [State.tick_of_waiting_stay hp]; split <;> rfl
    · rw [State.tick_of_waiting_change hp hl]
  | delayingEnd => rw [State.tick_of_delayingEnd level hp]; split <;> rfl
  | idle => rw [State.tick_of_idle level hp]

@[simp] theorem State.tick_params (s : State) (level : Bool) : (s.tick level).params = s.params := by
  rw [State.tick_frame]
@[simp] theorem State.tick_inputPin (s : State) (level : Bool) : (s.tick level).inputPin = s.inputPin := by
  rw [State.tick_frame]
@[simp] theorem State.tick_initialised (s : State) (level : Bool) :
    (s.tick level).initialised = s.initialised := by
  rw [State.tick_frame]
@[simp] theorem State.tick_inputs (s : State) (level : Bool) : (s.tick level).inputs = s.inputs := by
  rw [State.tick_frame]
@[simp] theorem State.tick_reads (s : State) (level : Bool) : (s.tick level).reads = s.reads := by
  rw [State.tick_frame]

/-- A tick does not look at the edges still to come. -/
theorem State.tick_withInputs (s : State) (level : Bool) (edges : List Edge) :
    (s.withInputs edges).tick level = (s.tick level).withInputs edges := by
  have hphase : (s.withInputs edges).phase = s.phase := rfl
  cases hp : s.phase with
  | standby =>
    cases level with
    | false => rw [State.tick_of_standby_space hp, State.tick_of_standby_space (hphase.trans hp)]; rfl
    | true => rw [State.tick_of_standby_mark hp, State.tick_of_standby_mark (hphase.trans hp)]; rfl
  | delaying =>
    rw [State.tick_of_delaying level hp, State.tick_of_delaying level (hphase.trans hp), State.ite_withInputs]
    rfl
  | waiting =>
    by_cases hl : level = s.referenceLevel
    · subst hl
      refine (State.tick_of_waiting_stay (hphase.trans hp)).trans ?_
      rw [State.tick_of_waiting_stay hp, State.ite_withInputs]
      rfl
    · rw [State.tick_of_waiting_change hp hl, State.tick_of_waiting_change (hphase.trans hp) hl]; rfl
  | delayingEnd =>
    rw [State.tick_of_delayingEnd level hp, State.tick_of_delayingEnd level (hphase.trans hp), State.ite_withInputs]
    rfl
  | idle => rw [State.tick_of_idle level hp, State.tick_of_idle level (hphase.trans hp)]; rfl

/-! ### A list of ticks -/

/-- The effect of ticks at these levels, the first one first. -/
def State.ticked (s : State) (levels : List Bool) : State := levels.foldl State.tick s

@[simp] theorem State.ticked_nil (s : State) : s.ticked [] = s := rfl

theorem State.ticked_cons (s : State) (level : Bool) (levels : List Bool) :
    s.ticked (level :: levels) = (s.tick level).ticked levels := rfl

theorem State.ticked_singleton (s : State) (level : Bool) : s.ticked [level] = s.tick level := rfl

theorem State.ticked_append (s : State) (xs ys : List Bool) : s.ticked (xs ++ ys) = (s.ticked xs).ticked ys :=
  List.foldl_append

/-- `tick_frame` for a list of ticks. -/
theorem State.ticked_frame (s : State) (levels : List Bool) :
    s.ticked levels =
      { s with
        phase := (s.ticked levels).phase
        pendingWord := (s.ticked levels).pendingWord
        currentLevel := (s.ticked levels).currentLevel
        referenceLevel := (s.ticked levels).referenceLevel
        tickCounter := (s.ticked levels).tickCounter
        bitsRemaining := (s.ticked levels).bitsRemaining } := by
  induction levels generalizing s with
  | nil => rfl
  | cons level levels ih =>
    rw [State.ticked_cons, ih, State.tick_frame]

@[simp] theorem State.ticked_params (s : State) (levels : List Bool) : (s.ticked levels).params = s.params := by
  rw [State.ticked_frame]
@[simp] theorem State.ticked_inputPin (s : State) (levels : List Bool) :
    (s.ticked levels).inputPin = s.inputPin := by
  rw [State.ticked_frame]
@[simp] theorem State.ticked_initialised (s : State) (levels : List Bool) :
    (s.ticked levels).initialised = s.initialised := by
  rw [State.ticked_frame]
@[simp] theorem State.ticked_inputs (s : State) (levels : List Bool) : (s.ticked levels).inputs = s.inputs := by
  rw [State.ticked_frame]
@[simp] theorem State.ticked_reads (s : State) (levels : List Bool) : (s.ticked levels).reads = s.reads := by
  rw [State.ticked_frame]

theorem State.ticked_withInputs (s : State) (levels : List Bool) (edges : List Edge) :
    (s.withInputs edges).ticked levels = (s.ticked levels).withInputs edges := by
  induction levels generalizing s with
  | nil => rfl
  | cons level levels ih => rw [State.ticked_cons, State.tick_withInputs, ih, State.ticked_cons]

/-! ### Traces of ticks -/

theorem ticks_append (xs ys : List Bool) : ticks (xs ++ ys) = ticks xs ++ ticks ys := List.map_append

theorem trace_append (pin : Pin) (xs ys : List Token) : trace pin (xs ++ ys) = trace pin xs ++ trace pin ys :=
  List.map_append

theorem trace_ticks_cons (pin : Pin) (level : Bool) (levels : List Bool) :
    trace pin (ticks (level :: levels)) = tickEdge pin level :: trace pin (ticks levels) := by
  cases level <;> rfl

theorem markRun_eq_ticks (n : Nat) : markRun n = ticks (List.replicate n true) := by
  simp [markRun, ticks, levelToken]

theorem spaceRun_eq_ticks (n : Nat) : spaceRun n = ticks (List.replicate n false) := by
  simp [spaceRun, ticks, levelToken]

/-- A run over ticks that are written down is `ticked`. -/
theorem run_ticks {s : State} {levels : List Bool} {rest : List Edge} (ha : s.params.admissible = true)
    (hi : s.initialised = true) (hin : s.inputs = trace s.inputPin (ticks levels) ++ rest) :
    Sys2Proof.core.run levels.length s = .next ((s.withInputs rest).ticked levels) := by
  induction levels generalizing s with
  | nil =>
    have hs : s.inputs = rest := hin
    rw [← hs]
    rfl
  | cons level levels ih =>
    rw [trace_ticks_cons, List.cons_append] at hin
    rw [List.length_cons, run_succ_next _ _ _ (step_of_tickEdge ha hi hin), ih]
    · rw [State.ticked_cons, State.tick_withInputs, State.tick_withInputs, State.withInputs_withInputs]
    · simpa using ha
    · simpa using hi
    · simp

/-- The first `k` steps of a run over ticks that are written down. -/
theorem run_ticks_take {s : State} {levels : List Bool} {rest : List Edge} (ha : s.params.admissible = true)
    (hi : s.initialised = true) (hin : s.inputs = trace s.inputPin (ticks levels) ++ rest) {k : Nat}
    (hk : k ≤ levels.length) :
    Sys2Proof.core.run k s =
      .next ((s.withInputs (trace s.inputPin (ticks (levels.drop k)) ++ rest)).ticked (levels.take k)) := by
  have hsplit : s.inputs =
      trace s.inputPin (ticks (levels.take k)) ++ (trace s.inputPin (ticks (levels.drop k)) ++ rest) := by
    rw [← List.append_assoc, ← trace_append, ← ticks_append, List.take_append_drop, hin]
  have hrun := run_ticks ha hi hsplit
  rwa [List.length_take_of_le hk] at hrun

/-! ### Phases that count -/

/-- The count that a counting phase must exceed (R114, R118, R119). -/
def State.limit (s : State) : Nat := if s.phase = .waiting then s.params.timeout else s.params.delay

theorem State.limit_of_delaying {s : State} (hp : s.phase = .delaying) : s.limit = s.params.delay := by
  simp [State.limit, hp]

theorem State.limit_of_delayingEnd {s : State} (hp : s.phase = .delayingEnd) : s.limit = s.params.delay := by
  simp [State.limit, hp]

theorem State.limit_of_waiting {s : State} (hp : s.phase = .waiting) : s.limit = s.params.timeout := if_pos hp

/-- A tick at this level does nothing but count, as long as the limit is not exceeded. -/
def State.Counts (s : State) (level : Bool) : Prop :=
  s.phase = .delaying ∨ s.phase = .delayingEnd ∨ (s.phase = .waiting ∧ level = s.referenceLevel)

theorem State.limit_le (s : State) (ha : s.params.admissible = true) : s.limit ≤ 254 := by
  obtain ⟨-, -, hdelay, htimeout⟩ := bounds_of_admissible s.params ha
  unfold State.limit
  split
  · exact htimeout
  · exact hdelay

/-- The count of R26 does not wrap up to the largest limit that R6 admits and one tick more. -/
theorem toNat_add_ofNat_of_le (c : TickCount) {n : Nat} (h : c.toNat + n ≤ 255) :
    (c + BitVec.ofNat 8 n).toNat = c.toNat + n := by
  rw [BitVec.toNat_add, BitVec.toNat_ofNat, Nat.add_mod_mod, Nat.mod_eq_of_lt (by omega)]

theorem toNat_add_one_of_le (c : TickCount) (h : c.toNat ≤ 254) : (c + 1#8).toNat = c.toNat + 1 :=
  toNat_add_ofNat_of_le c (n := 1) (by omega)

/-- At or below the limit a tick only counts (R114, R115, R118, R119). -/
theorem State.tick_of_counts {s : State} {level : Bool} (ha : s.params.admissible = true) (hc : s.Counts level)
    (hlt : s.tickCounter.toNat < s.limit) :
    s.tick level = { s with currentLevel := level, tickCounter := s.tickCounter + 1#8 } := by
  have hmax := s.limit_le ha
  have hnext := toNat_add_one_of_le s.tickCounter (by omega)
  obtain hp | hp | ⟨hp, rfl⟩ := hc
  · have hlimit := State.limit_of_delaying hp
    rw [State.tick_of_delaying level hp, if_neg (by omega)]
  · have hlimit := State.limit_of_delayingEnd hp
    rw [State.tick_of_delayingEnd level hp, if_neg (by omega)]
  · have hlimit := State.limit_of_waiting hp
    rw [State.tick_of_waiting_stay hp, if_neg (by omega)]

/-- Ticks that stay at or below the limit only count. -/
theorem State.ticked_of_counts {s : State} {levels : List Bool} (ha : s.params.admissible = true)
    (hc : ∀ level ∈ levels, s.Counts level) (hle : s.tickCounter.toNat + levels.length ≤ s.limit) :
    s.ticked levels =
      { s with
        currentLevel := levels.getLastD s.currentLevel
        tickCounter := s.tickCounter + BitVec.ofNat 8 levels.length } := by
  induction levels generalizing s with
  | nil => simp
  | cons level levels ih =>
    have hmax := s.limit_le ha
    rw [List.length_cons] at hle
    have hnext := toNat_add_one_of_le s.tickCounter (by omega)
    rw [State.ticked_cons, State.tick_of_counts ha (hc level List.mem_cons_self) (by omega), ih]
    · simp only [List.getLastD_cons, List.length_cons, Nat.add_comm levels.length, BitVec.ofNat_add, BitVec.add_assoc]
    · exact ha
    · exact fun l hl => hc l (List.mem_cons_of_mem level hl)
    · change (s.tickCounter + 1#8).toNat + levels.length ≤ s.limit
      omega

/-- `ticked_of_counts` from a cleared counter and at one level. -/
theorem State.ticked_replicate_of_counts {s : State} {level : Bool} {n : Nat} (ha : s.params.admissible = true)
    (hc : s.Counts level) (h0 : s.tickCounter = 0#8) (hle : n ≤ s.limit) :
    s.ticked (List.replicate n level) =
      { s with
        currentLevel := (List.replicate n level).getLastD s.currentLevel
        tickCounter := BitVec.ofNat 8 n } := by
  rw [State.ticked_of_counts ha]
  · simp [h0]
  · intro l hl
    rwa [List.eq_of_mem_replicate hl]
  · simpa [h0] using hle

theorem State.ticked_phase_of_counts {s : State} {level : Bool} {n : Nat} (ha : s.params.admissible = true)
    (hc : s.Counts level) (h0 : s.tickCounter = 0#8) (hle : n ≤ s.limit) :
    (s.ticked (List.replicate n level)).phase = s.phase := by
  rw [State.ticked_replicate_of_counts ha hc h0 hle]

/-- The tick that exceeds `DELAY` captures its own level (R114, R115; D4). -/
theorem State.tick_captures {s : State} (level : Bool) (ha : s.params.admissible = true) (hp : s.phase = .delaying)
    (hc : s.tickCounter.toNat = s.params.delay) :
    s.tick level =
      { s with currentLevel := level, referenceLevel := level, tickCounter := 0#8, phase := .waiting } := by
  obtain ⟨-, -, hdelay, -⟩ := bounds_of_admissible s.params ha
  have hnext := toNat_add_one_of_le s.tickCounter (by omega)
  rw [State.tick_of_delaying level hp, if_pos (by omega)]

/-- The tick that exceeds `TIMEOUT` times out (R118, R152; D4). -/
theorem State.tick_times_out {s : State} (ha : s.params.admissible = true) (hp : s.phase = .waiting)
    (hc : s.tickCounter.toNat = s.params.timeout) :
    s.tick s.referenceLevel =
      { s with
        currentLevel := s.referenceLevel
        tickCounter := s.tickCounter + 1#8
        pendingWord := sentinel
        phase := .idle } := by
  obtain ⟨-, -, -, htimeout⟩ := bounds_of_admissible s.params ha
  have hnext := toNat_add_one_of_le s.tickCounter (by omega)
  rw [State.tick_of_waiting_stay hp, if_pos (by omega)]

/-- The tick that exceeds `DELAY` in `DelayingEnd` releases the word (R119; D5). -/
theorem State.tick_releases {s : State} (level : Bool) (ha : s.params.admissible = true)
    (hp : s.phase = .delayingEnd) (hc : s.tickCounter.toNat = s.params.delay) :
    s.tick level = { s with currentLevel := level, tickCounter := s.tickCounter + 1#8, phase := .idle } := by
  obtain ⟨-, -, hdelay, -⟩ := bounds_of_admissible s.params ha
  have hnext := toNat_add_one_of_le s.tickCounter (by omega)
  rw [State.tick_of_delayingEnd level hp, if_pos (by omega)]

/-- Ticks of any levels up to `DELAY`, and then the capture of the last level (R114, R126; D4). -/
theorem State.ticked_captures {s : State} {levels : List Bool} (last : Bool) (ha : s.params.admissible = true)
    (hp : s.phase = .delaying) (hc : s.tickCounter.toNat + levels.length = s.params.delay) :
    s.ticked (levels ++ [last]) =
      { s with currentLevel := last, referenceLevel := last, tickCounter := 0#8, phase := .waiting } := by
  obtain ⟨-, -, hdelay, -⟩ := bounds_of_admissible s.params ha
  rw [State.ticked_append, State.ticked_of_counts ha (fun _ _ => .inl hp) (by rw [hc, State.limit_of_delaying hp]),
    State.ticked_singleton]
  exact State.tick_captures last ha hp ((toNat_add_ofNat_of_le s.tickCounter (by omega)).trans hc)

/-- Ticks without a transition up to `TIMEOUT`, and then the timeout (R118, R152; D4). -/
theorem State.ticked_times_out {s : State} {n : Nat} (ha : s.params.admissible = true) (hp : s.phase = .waiting)
    (hc : s.tickCounter.toNat + n = s.params.timeout) :
    s.ticked (List.replicate (n + 1) s.referenceLevel) =
      { s with
        currentLevel := s.referenceLevel
        tickCounter := s.tickCounter + BitVec.ofNat 8 n + 1#8
        pendingWord := sentinel
        phase := .idle } := by
  obtain ⟨-, -, -, htimeout⟩ := bounds_of_admissible s.params ha
  have hcounts (l : Bool) (hl : l ∈ List.replicate n s.referenceLevel) : s.Counts l :=
    .inr (.inr ⟨hp, List.eq_of_mem_replicate hl⟩)
  rw [List.replicate_succ', State.ticked_append,
    State.ticked_of_counts ha hcounts (by rw [List.length_replicate, hc, State.limit_of_waiting hp]),
    List.length_replicate, State.ticked_singleton]
  exact State.tick_times_out ha hp ((toNat_add_ofNat_of_le s.tickCounter (by omega)).trans hc)

/-- Ticks of any levels up to `DELAY` in `DelayingEnd`, and then the release of the word (R119, R126; D5). -/
theorem State.ticked_releases {s : State} {levels : List Bool} (last : Bool) (ha : s.params.admissible = true)
    (hp : s.phase = .delayingEnd) (hc : s.tickCounter.toNat + levels.length = s.params.delay) :
    s.ticked (levels ++ [last]) =
      { s with
        currentLevel := last
        tickCounter := s.tickCounter + BitVec.ofNat 8 levels.length + 1#8
        phase := .idle } := by
  obtain ⟨-, -, hdelay, -⟩ := bounds_of_admissible s.params ha
  rw [State.ticked_append,
    State.ticked_of_counts ha (fun _ _ => .inr (.inl hp)) (by rw [hc, State.limit_of_delayingEnd hp]),
    State.ticked_singleton]
  exact State.tick_releases last ha hp ((toNat_add_ofNat_of_le s.tickCounter (by omega)).trans hc)

end Sys2Proof.Machine
end

section
/-! SUPPORT and proofs for operation family 3, the consumer's read (spec/42_read.md): what a `Read` returns and leaves
(R140, R141), and the results that a `Read` finds after the ticks that produce them. -/

namespace Sys2Proof.Machine

/-! ### The rows of a `Read` -/

/-- The effect of `READ.IDLE`: the result is returned and the block re-armed (R140). -/
def State.collect (s : State) : State := (s.returnValue s.pendingWord).rearm

/-- `collect` in full. -/
theorem State.collect_eq (s : State) :
    s.collect =
      { s with
        reads := s.reads ++ [s.pendingWord]
        bitsRemaining := BitVec.ofNat 4 s.params.numBits
        tickCounter := 0#8
        pendingWord := 0#16
        phase := .standby } := rfl

/-- The effect of a `Read` on everything but the inputs: the result and the re-arm in `Idle`, else 0 (R140, R141). -/
def State.readArm (s : State) : State :=
  if s.phase = .idle then s.collect else s.returnValue 0#16

theorem State.readArm_of_idle {s : State} (hp : s.phase = .idle) :
    s.readArm = s.collect := by
  simp [State.readArm, hp]

/-- `READ.IDLE` where it runs. -/
theorem exec_readIdle_of_idle {s : State} (hi : s.initialised = true) (hp : s.phase = .idle) :
    exec .readIdle s = .next s.collect := by
  rw [exec_readIdle, State.onEvent_run s _ _ hi (by simp [hp])]
  rfl

/-- `READ.BUSY` where it runs. -/
theorem exec_readBusy_of_ne_idle {s : State} (hi : s.initialised = true) (hp : s.phase ≠ .idle) :
    exec (.readBusy s.phase) s = .next (s.returnValue 0#16) := by
  rw [exec_readBusy, State.onEvent_run s _ _ hi (by simp [hp])]

/-- The table has `READ.BUSY` for every phase but `Idle` (R73). -/
theorem decodeRead_eq (p : Phase) : decodeRead p = if p = .idle then .readIdle else .readBusy p := by
  cases p <;> rfl

/-- The row that the table picks for a `Read`: the two READ rows together are `readArm`. -/
theorem exec_decodeRead {s : State} (hi : s.initialised = true) :
    exec (decodeRead s.phase) s = .next s.readArm := by
  rw [decodeRead_eq, State.readArm]
  split
  next hp => exact exec_readIdle_of_idle hi hp
  next hp => exact exec_readBusy_of_ne_idle hi hp

/-- The step of a `Read` that is written down; where the edge has a tick too, its `Step` comes next (R157, D8). -/
theorem step_of_readEdge {s : State} {e : Edge} {rest : List Edge} (ha : s.params.admissible = true)
    (hi : s.initialised = true) (hin : s.inputs = e :: rest) (hk : e.kind = .read) :
    step s = .next (s.withInputs (e.leftover ++ rest)).readArm := by
  have hfetch : s.fetch = .ok (decodeRead s.phase) := by
    simp [State.fetch, State.dispatchWord, decode, State.nextEdge_of_inputs hin, hk]
  rw [step_of_fetch s _ ha hfetch, State.consume_of_inputs hin]
  exact exec_decodeRead (s := s.withInputs (e.leftover ++ rest)) hi

/-- `step_of_readEdge` in `Idle` (R140). -/
theorem step_of_readEdge_of_idle {s : State} {e : Edge} {rest : List Edge} (ha : s.params.admissible = true)
    (hi : s.initialised = true) (hp : s.phase = .idle) (hin : s.inputs = e :: rest) (hk : e.kind = .read) :
    step s = .next (s.withInputs (e.leftover ++ rest)).collect := by
  rw [step_of_readEdge ha hi hin hk]
  exact congrArg _ (State.readArm_of_idle (s := s.withInputs (e.leftover ++ rest)) hp)

/-- The results of R78, read as integers (R80). -/
theorem toInt_of_legalResult {n : Nat} {v : Word} (hn : n ≤ 15) (hv : legalResult n v) :
    v.toInt = -1 ∨ (0 ≤ v.toInt ∧ v.toInt ≤ 2 ^ n - 1) := by
  obtain rfl | hlt := hv
  · exact .inl (by decide)
  · have hpow : 2 ^ n ≤ 2 ^ 15 := Nat.pow_le_pow_right (by decide) hn
    have hint : v.toInt = v.toNat := BitVec.toInt_eq_toNat_of_lt (by omega)
    have hcast : ((v.toNat : Nat) : Int) < 2 ^ n := by exact_mod_cast hlt
    omega

/-- In `Idle` the invariant makes the pending word a legal result (R32). -/
theorem State.Inv.legalResult_of_idle {s : State} (h : s.Inv) (hi : s.initialised = true) (hp : s.phase = .idle) :
    legalResult s.params.numBits s.pendingWord := by
  obtain ⟨-, hshape, -⟩ := h
  obtain ⟨-, -, -, -, hidle⟩ := hshape hi
  obtain ⟨-, -, hword⟩ | ⟨-, -, hsentinel⟩ := hidle hp
  · exact .inr hword
  · exact .inl hsentinel

/-- Settles O25: the arm of `READ.IDLE` is the returned value and then the re-arm, and the invariant makes the word in
`Idle` a legal result. -/
theorem readInIdleReturnsTheResultAndRearms : Obligations.ReadInIdleReturnsTheResultAndRearms := by
  intro s hi hp
  refine ⟨?_, fun hinv => ?_⟩
  · rw [exec_readIdle_of_idle hi hp, State.collect_eq]
  · obtain ⟨-, hbits, -, -⟩ := bounds_of_admissible s.params hinv.1
    exact toInt_of_legalResult hbits (State.Inv.legalResult_of_idle hinv hi hp)

/-- Settles O26: the arm of `READ.BUSY` is the returned value alone. -/
theorem readWhileBusyReturnsZeroAndWritesNothing : Obligations.ReadWhileBusyReturnsZeroAndWritesNothing := by
  intro s hi hp
  rw [exec_readBusy_of_ne_idle hi hp]
  rfl

/-! ### A `Read` and a tick at one edge -/

/-- The tick after a re-arm finds `Standby`, where the level alone decides (R112, R113; D6). -/
theorem State.tick_collect (s : State) (level : Bool) :
    s.collect.tick level =
      { s.collect with currentLevel := level, phase := if level then .delaying else .standby } := by
  have hp : s.collect.phase = .standby := rfl
  cases level with
  | false => rw [State.tick_of_standby_space hp]; rfl
  | true => rw [State.tick_of_standby_mark hp]; rfl

/-- Settles O11: the first step is the `Read` and leaves the tick of the same edge in front of the inputs, and the
second is that tick on the re-armed state. -/
theorem readThenTickAtOneEdgeInIdle : Obligations.ReadThenTickAtOneEdgeInIdle := by
  intro s level rest ha hi hp hin
  have hread : step s = .next (s.withInputs (tickEdge s.inputPin level :: rest)).collect :=
    step_of_readEdge_of_idle ha hi hp hin rfl
  have htick := step_of_tickEdge (s := (s.withInputs (tickEdge s.inputPin level :: rest)).collect) ha hi rfl
  calc Sys2Proof.core.run 2 s
    _ = Sys2Proof.core.run 1 (s.withInputs (tickEdge s.inputPin level :: rest)).collect := run_succ_next 1 _ _ hread
    _ = .next ((s.withInputs rest).collect.tick level) := run_succ_next 0 _ _ htick
    _ = _ := congrArg _ (State.tick_collect (s.withInputs rest) level)

/-! ### A timeout and the `Read` after it -/

/-- A run over ticks to `Idle` and the `Read` after them, which is one step more. -/
theorem run_ticks_read {s : State} {levels : List Bool} {pin : Pin} {rest : List Edge}
    (ha : s.params.admissible = true) (hi : s.initialised = true)
    (hin : s.inputs = trace s.inputPin (ticks levels) ++ readEdge pin :: rest)
    (hp : (s.ticked levels).phase = .idle) :
    Sys2Proof.core.run (levels.length + 1) s =
      .next ((s.ticked levels).withInputs rest).collect := by
  have hrun := run_ticks ha hi hin
  rw [State.ticked_withInputs] at hrun
  have hread := step_of_readEdge_of_idle (s := (s.ticked levels).withInputs (readEdge pin :: rest))
    (by simpa using ha) (by simpa using hi) hp rfl rfl
  exact (run_add _ 1 _ _ hrun).trans (run_succ_next 0 _ _ hread)

/-- Settles O45: the first `TIMEOUT` ticks only count, the next one times out, and the `Read` finds the sentinel in
`Idle`. -/
theorem timeoutIsReportedByTheNextRead : Obligations.TimeoutIsReportedByTheNextRead := by
  intro s pin rest ha hi hp h0 hin
  have hlength : (List.replicate (s.params.timeout + 1) s.referenceLevel).length = s.params.timeout + 1 :=
    List.length_replicate
  have hout : s.ticked (List.replicate (s.params.timeout + 1) s.referenceLevel) =
      { s with
        currentLevel := s.referenceLevel
        tickCounter := BitVec.ofNat 8 (s.params.timeout + 1)
        pendingWord := sentinel
        phase := .idle } := by
    rw [State.ticked_times_out ha hp (by simp [h0]), h0, BitVec.zero_add, BitVec.ofNat_add]
  refine ⟨fun k hk => ⟨_, run_ticks_take ha hi hin (by rw [hlength]; omega), ?_⟩, ?_, ?_⟩
  · have hlimit : k ≤ s.limit := by rwa [State.limit_of_waiting hp]
    rw [List.take_replicate, Nat.min_eq_left (by omega), State.ticked_withInputs, State.withInputs_phase,
      State.ticked_phase_of_counts ha (.inr (.inr ⟨hp, rfl⟩)) h0 hlimit, hp]
  · have hrun := run_ticks ha hi hin
    rw [hlength, State.ticked_withInputs, hout] at hrun
    exact hrun
  · have hrun := run_ticks_read ha hi hin (by rw [hout])
    rw [hlength, hout] at hrun
    exact hrun

/-! ### A mark that never ends -/

/-- `Waiting` as an endless mark reaches it: the trigger and `DELAY + 1` ticks (R113, R114; D6). -/
theorem State.ticked_mark_to_waiting {s : State} (ha : s.params.admissible = true) (hp : s.phase = .standby) :
    s.ticked (List.replicate (s.params.delay + 2) true) =
      { s with currentLevel := true, referenceLevel := true, tickCounter := 0#8, phase := .waiting } := by
  rw [List.replicate_succ, State.ticked_cons, State.tick_of_standby_mark hp, List.replicate_succ']
  exact State.ticked_captures true ha rfl (by simp)

/-- An endless mark does not reach `Idle` before its `(DELAY + TIMEOUT + 3)`-th tick: the phases are `Standby`, then
`Delaying`, then `Waiting`. -/
theorem State.ticked_mark_phase_ne_idle {s : State} {k : Nat} (ha : s.params.admissible = true)
    (hp : s.phase = .standby) (hk : k < s.params.delay + s.params.timeout + 3) :
    (s.ticked (List.replicate k true)).phase ≠ .idle := by
  cases k with
  | zero => simp [hp]
  | succ k =>
    by_cases hdelay : k ≤ s.params.delay
    · rw [List.replicate_succ, State.ticked_cons, State.tick_of_standby_mark hp]
      exact ne_of_eq_of_ne (State.ticked_phase_of_counts ha (.inl rfl) rfl hdelay) (by simp)
    · obtain ⟨j, rfl⟩ : ∃ j, k = s.params.delay + 1 + j := ⟨k - (s.params.delay + 1), by omega⟩
      rw [show s.params.delay + 1 + j + 1 = s.params.delay + 2 + j by omega, List.replicate_add, State.ticked_append,
        State.ticked_mark_to_waiting ha hp]
      have htimeout : j ≤ s.params.timeout := by omega
      exact ne_of_eq_of_ne (State.ticked_phase_of_counts ha (.inr (.inr ⟨rfl, rfl⟩)) rfl htimeout) (by simp)

/-- The `(DELAY + TIMEOUT + 3)`-th tick of an endless mark is a timeout (R188; D4). -/
theorem State.ticked_mark_times_out {s : State} (ha : s.params.admissible = true) (hp : s.phase = .standby) :
    s.ticked (List.replicate (s.params.delay + s.params.timeout + 3) true) =
      { s with
        currentLevel := true
        referenceLevel := true
        tickCounter := 0#8 + BitVec.ofNat 8 s.params.timeout + 1#8
        pendingWord := sentinel
        phase := .idle } := by
  rw [show s.params.delay + s.params.timeout + 3 = s.params.delay + 2 + (s.params.timeout + 1) by omega,
    List.replicate_add, State.ticked_append, State.ticked_mark_to_waiting ha hp]
  exact State.ticked_times_out ha rfl (Nat.zero_add _)

/-- Settles O49: the mark's last tick is the timeout and none before it reaches `Idle`; the `Read` collects. -/
theorem stuckMarkTimesOutAfterEachRearm : Obligations.StuckMarkTimesOutAfterEachRearm := by
  intro s pin rest ha hi hp hin
  rw [markRun_eq_ticks] at hin
  have hlength : (List.replicate (s.params.delay + s.params.timeout + 3) true).length =
      s.params.delay + s.params.timeout + 3 := List.length_replicate
  have hout := State.ticked_mark_times_out ha hp
  refine ⟨fun k hk => ⟨_, run_ticks_take ha hi hin (by rw [hlength]; omega), ?_⟩, ?_⟩
  · rw [List.take_replicate, Nat.min_eq_left (by omega)]
    exact State.ticked_mark_phase_ne_idle ha hp hk
  · have hrun := run_ticks_read ha hi hin (by rw [hout])
    rw [hlength, hout] at hrun
    exact hrun

end Sys2Proof.Machine
end

section
/-! SUPPORT and the proof of the nominal frame (30_encoding.md section 5, 95_test_vectors.md section 5): the levels of a
frame, what is true of the state between two bit cells, and what one cell does to it. -/

namespace Sys2Proof.Machine

/-! ### The levels of a frame -/

/-- The levels of `BIT(b)`: a half-cell at the complement of the bit, then one at the bit (R75, R84). -/
def cellLevels (h : Nat) (b : Bool) : List Bool := List.replicate h (!b) ++ List.replicate h b

/-- The levels of `FRAME(w)` (R84). -/
def frameLevels (h n : Nat) (w : Word) : List Bool :=
  cellLevels h true ++ (frameBits n w).flatMap (cellLevels h)

theorem bitCell_eq_ticks (h : Nat) (b : Bool) : bitCell h b = ticks (cellLevels h b) := by
  cases b <;> simp [bitCell, cellLevels, ticks_append, markRun_eq_ticks, spaceRun_eq_ticks]

theorem frame_eq_ticks (h n : Nat) (w : Word) : frame h n w = ticks (frameLevels h n w) := by
  rw [frame, frameLevels, ticks_append, bitCell_eq_ticks]
  congr 1
  induction frameBits n w with
  | nil => rfl
  | cons b bits ih => rw [List.flatMap_cons, List.flatMap_cons, ticks_append, bitCell_eq_ticks, ih]

/-- The edges of a frame, two spaces and a `Read`, as ticks and an edge. -/
theorem trace_frame_spaces_read (pin : Pin) (h n : Nat) (w : Word) (rest : List Edge) :
    trace pin (frame h n w ++ spaceRun 2 ++ [.read]) ++ rest =
      trace pin (ticks (frameLevels h n w ++ [false, false])) ++ readEdge pin :: rest := by
  rw [frame_eq_ticks, spaceRun_eq_ticks, ← ticks_append, trace_append, List.append_assoc]
  rfl

theorem cellLevels_length (h : Nat) (b : Bool) : (cellLevels h b).length = 2 * h := by
  simp [cellLevels, Nat.two_mul]

theorem frameBits_length (n : Nat) (w : Word) : (frameBits n w).length = n := by
  induction n with
  | zero => rfl
  | succ n ih => rw [frameBits, List.length_cons, ih]

theorem frameLevels_length (h n : Nat) (w : Word) : (frameLevels h n w).length = 2 * h * (n + 1) := by
  simp only [frameLevels, List.length_append, List.length_flatMap, cellLevels_length, List.map_const',
    List.sum_replicate, frameBits_length, smul_eq_mul]
  ring

/-! ### Between two bit cells -/

/-- Ticks that only count, at the level that was sampled last. -/
theorem State.ticked_same_level {s : State} {level : Bool} {n : Nat} (ha : s.params.admissible = true)
    (hc : s.Counts level) (h0 : s.tickCounter = 0#8) (hle : n ≤ s.limit) (hl : s.currentLevel = level) :
    s.ticked (List.replicate n level) = { s with tickCounter := BitVec.ofNat 8 n } := by
  have hlast : (List.replicate n level).getLastD level = level := by
    cases n with
    | zero => rfl
    | succ n => rw [List.replicate_succ', List.getLastD_concat]
  rw [State.ticked_replicate_of_counts ha hc h0 hle, hl, hlast]

/-- The count `DELAY - 1` fits the counter. -/
theorem toNat_ofNat_delay_sub_one {d : Nat} (hd : 2 ≤ d) (hmax : d ≤ 254) :
    (BitVec.ofNat 8 (d - 1)).toNat + 1 = d := by
  rw [BitVec.toNat_ofNat, Nat.mod_eq_of_lt (by omega)]
  omega

/-- Where a nominal frame of `w` finds the block between two cells when `n` bits are still to come: `DELAY - 1` ticks
after a trigger or a transition, with the bits from position `n` up in place and no other bit set (R76, R77). -/
structure State.Receiving (s : State) (w : Word) (n : Nat) : Prop where
  phase : s.phase = if n = 0 then .delayingEnd else .delaying
  ticks : s.tickCounter.toNat + 1 = s.params.delay
  bits : s.bitsRemaining.toNat = n
  word : ∀ j < 16, s.pendingWord.getLsbD j = (decide (n ≤ j) && w.getLsbD j)

/-- With no bit to come the word is complete. -/
theorem State.Receiving.pendingWord_eq {s : State} {w : Word} (h : s.Receiving w 0) : s.pendingWord = w := by
  refine BitVec.eq_of_getLsbD_eq fun j hj => ?_
  simpa using h.word j hj

/-- The first half of a cell, at the complement of the bit: one tick more in `Delaying`, the capture, and `DELAY - 2`
ticks in `Waiting`, which `TIMEOUT` allows (R114, R118). -/
theorem State.ticked_first_half {s : State} (level : Bool) (ha : s.params.admissible = true)
    (hp : s.phase = .delaying) (hc : s.tickCounter.toNat + 1 = s.params.delay) (hd : 2 ≤ s.params.delay)
    (ht : s.params.delay ≤ s.params.timeout + 2) :
    s.ticked (List.replicate s.params.delay level) =
      { s with
        currentLevel := level
        referenceLevel := level
        tickCounter := BitVec.ofNat 8 (s.params.delay - 2)
        phase := .waiting } := by
  have hlevels : List.replicate s.params.delay level =
      [level] ++ [level] ++ List.replicate (s.params.delay - 2) level := by
    rw [← List.replicate_one, ← List.replicate_add, ← List.replicate_add]
    congr 1
    omega
  have hwait : s.params.delay - 2 ≤ s.params.timeout := by omega
  rw [hlevels, State.ticked_append, State.ticked_captures (levels := [level]) level ha hp hc]
  exact State.ticked_same_level ha (.inr (.inr ⟨rfl, rfl⟩)) rfl hwait rfl

/-- The second half of a cell, at the bit: the transition, and `DELAY - 1` ticks in the phase it leads to (R116, R117,
R119). -/
theorem State.ticked_second_half {s : State} {b : Bool} (ha : s.params.admissible = true) (hp : s.phase = .waiting)
    (hb : b ≠ s.referenceLevel) (hd : 2 ≤ s.params.delay) :
    s.ticked (List.replicate s.params.delay b) =
      { s with
        currentLevel := b
        bitsRemaining := s.bitsRemaining - 1#4
        tickCounter := BitVec.ofNat 8 (s.params.delay - 1)
        pendingWord := if b then setbit s.pendingWord (s.bitsRemaining - 1#4).toNat else s.pendingWord
        phase := if s.bitsRemaining - 1#4 = 0#4 then .delayingEnd else .delaying } := by
  have hlevels : List.replicate s.params.delay b = b :: List.replicate (s.params.delay - 1) b := by
    rw [← List.replicate_succ, Nat.sub_add_cancel (by omega)]
  have hle : s.params.delay - 1 ≤ s.params.delay := Nat.sub_le _ _
  rw [hlevels, State.ticked_cons, State.tick_of_waiting_change hp hb]
  by_cases hlast : s.bitsRemaining - 1#4 = 0#4
  · rw [if_pos hlast]
    exact State.ticked_same_level ha (.inr (.inl rfl)) rfl hle rfl
  · rw [if_neg hlast]
    exact State.ticked_same_level ha (.inl rfl) rfl hle rfl

/-- One cell of a nominal frame accepts its bit at the decremented index (R75, R77; D18). -/
theorem State.ticked_cell {s : State} (b : Bool) (ha : s.params.admissible = true) (hp : s.phase = .delaying)
    (hc : s.tickCounter.toNat + 1 = s.params.delay) (hd : 2 ≤ s.params.delay)
    (ht : s.params.delay ≤ s.params.timeout + 2) :
    s.ticked (cellLevels s.params.delay b) =
      { s with
        currentLevel := b
        referenceLevel := !b
        bitsRemaining := s.bitsRemaining - 1#4
        tickCounter := BitVec.ofNat 8 (s.params.delay - 1)
        pendingWord := if b then setbit s.pendingWord (s.bitsRemaining - 1#4).toNat else s.pendingWord
        phase := if s.bitsRemaining - 1#4 = 0#4 then .delayingEnd else .delaying } := by
  rw [cellLevels, State.ticked_append, State.ticked_first_half (!b) ha hp hc hd ht]
  exact State.ticked_second_half ha rfl (by simp) hd

/-- The bit stored at position `n` extends the part of the word that is in place by one position. -/
theorem getLsbD_of_bit_stored {v w : Word} {n : Nat}
    (h : ∀ j < 16, v.getLsbD j = (decide (n + 1 ≤ j) && w.getLsbD j)) :
    ∀ j < 16, (if w.getLsbD n then setbit v n else v).getLsbD j = (decide (n ≤ j) && w.getLsbD j) := by
  intro j hj
  have hbit : (if w.getLsbD n then setbit v n else v).getLsbD j =
      (v.getLsbD j || (decide (j = n) && w.getLsbD n)) := by
    cases w.getLsbD n with
    | false => simp
    | true => simp [setbit_getLsbD v n j hj]
  rw [hbit, h j hj]
  obtain hlt | rfl | hgt := Nat.lt_trichotomy j n
  · simp [show ¬ n + 1 ≤ j by omega, show ¬ n ≤ j by omega, show j ≠ n by omega]
  · simp
  · simp [show n + 1 ≤ j by omega, show n ≤ j by omega, show j ≠ n by omega]

/-- The cell of the bit at position `n` leaves `n` bits to come. -/
theorem State.Receiving.ticked_cell {s : State} {w : Word} {n : Nat} (h : s.Receiving w (n + 1))
    (ha : s.params.admissible = true) (hd : 2 ≤ s.params.delay) (ht : s.params.delay ≤ s.params.timeout + 2) :
    (s.ticked (cellLevels s.params.delay (w.getLsbD n))).Receiving w n := by
  obtain ⟨-, -, hdelay, -⟩ := bounds_of_admissible s.params ha
  have hbits : (s.bitsRemaining - 1#4).toNat = n := by have := h.bits; bv_omega
  have hzero : s.bitsRemaining - 1#4 = 0#4 ↔ n = 0 := by rw [← BitVec.toNat_inj, hbits]; rfl
  rw [State.ticked_cell _ ha (by simpa using h.phase) h.ticks hd ht]
  refine ⟨?_, ?_, hbits, ?_⟩
  · simp only [hzero]
  · exact toNat_ofNat_delay_sub_one hd hdelay
  · simpa only [hbits] using getLsbD_of_bit_stored h.word

/-- The cells of the bits from position `n - 1` down to 0 complete the word. -/
theorem State.Receiving.ticked_cells {s : State} {w : Word} {n : Nat} (h : s.Receiving w n)
    (ha : s.params.admissible = true) (hd : 2 ≤ s.params.delay) (ht : s.params.delay ≤ s.params.timeout + 2) :
    (s.ticked ((frameBits n w).flatMap (cellLevels s.params.delay))).Receiving w 0 := by
  induction n generalizing s with
  | zero => exact h
  | succ n ih =>
    rw [frameBits, List.flatMap_cons, State.ticked_append]
    simpa using ih (h.ticked_cell ha hd ht) (by simpa using ha) (by simpa using hd) (by simpa using ht)

/-! ### The whole frame -/

/-- Spaces in `Standby` write nothing but the sample (R112). -/
theorem State.ticked_standby_spaces {s : State} {n : Nat} (hp : s.phase = .standby) :
    s.ticked (List.replicate n false) =
      { s with currentLevel := (List.replicate n false).getLastD s.currentLevel } := by
  induction n generalizing s with
  | zero => rfl
  | succ n ih =>
    rw [List.replicate_succ, State.ticked_cons, State.tick_of_standby_space hp, List.getLastD_cons]
    exact ih hp

/-- The leading cell: its first half is held, the second triggers and counts up to `DELAY - 1`, and no bit is accepted
(R112, R113, R114; D6). -/
theorem State.ticked_leading_cell {s : State} (ha : s.params.admissible = true) (hp : s.phase = .standby)
    (hd : 2 ≤ s.params.delay) :
    s.ticked (cellLevels s.params.delay true) =
      { s with currentLevel := true, tickCounter := BitVec.ofNat 8 (s.params.delay - 1), phase := .delaying } := by
  have hmarks : List.replicate s.params.delay true = true :: List.replicate (s.params.delay - 1) true := by
    rw [← List.replicate_succ, Nat.sub_add_cancel (by omega)]
  have hle : s.params.delay - 1 ≤ s.params.delay := Nat.sub_le _ _
  rw [cellLevels, State.ticked_append, Bool.not_true, State.ticked_standby_spaces hp, hmarks, State.ticked_cons,
    State.tick_of_standby_mark]
  · exact State.ticked_same_level ha (.inl rfl) rfl hle rfl
  · exact hp

/-- After the leading cell every bit of the word is still to come. -/
theorem State.receiving_of_leading_cell {s : State} {w : Word} (ha : s.params.admissible = true)
    (hp : s.phase = .standby) (hword : s.pendingWord = 0#16) (hbits : s.bitsRemaining.toNat = s.params.numBits)
    (hd : 2 ≤ s.params.delay) (hw : w.toNat < 2 ^ s.params.numBits) :
    (s.ticked (cellLevels s.params.delay true)).Receiving w s.params.numBits := by
  obtain ⟨hpos, -, hdelay, -⟩ := bounds_of_admissible s.params ha
  rw [State.ticked_leading_cell ha hp hd]
  refine ⟨(if_neg (by omega)).symm, toNat_ofNat_delay_sub_one hd hdelay, hbits, fun j _ => ?_⟩
  change s.pendingWord.getLsbD j = (decide (s.params.numBits ≤ j) && w.getLsbD j)
  rw [hword, BitVec.getLsbD_zero]
  by_cases hj : s.params.numBits ≤ j
  · have hlt : w.toNat < 2 ^ j := hw.trans_le (Nat.pow_le_pow_right (by decide) hj)
    rw [← BitVec.testBit_toNat, Nat.testBit_lt_two_pow hlt, Bool.and_false]
  · rw [decide_eq_false hj, Bool.false_and]

/-- A nominal frame from `Standby` brings in the whole word. -/
theorem State.receiving_of_frame {s : State} {w : Word} (ha : s.params.admissible = true)
    (hp : s.phase = .standby) (hword : s.pendingWord = 0#16) (hbits : s.bitsRemaining.toNat = s.params.numBits)
    (hd : 2 ≤ s.params.delay) (ht : s.params.delay ≤ s.params.timeout + 2) (hw : w.toNat < 2 ^ s.params.numBits) :
    (s.ticked (frameLevels s.params.delay s.params.numBits w)).Receiving w 0 := by
  rw [frameLevels, State.ticked_append]
  simpa using (State.receiving_of_leading_cell ha hp hword hbits hd hw).ticked_cells (by simpa using ha)
    (by simpa using hd) (by simpa using ht)

/-- After the last cell one space is still `DelayingEnd`, and the second releases the word (R119; D5). -/
theorem State.Receiving.ticked_spaces {s : State} {w : Word} (h : s.Receiving w 0) (ha : s.params.admissible = true) :
    (s.ticked [false]).phase = .delayingEnd ∧
      (s.ticked [false, false]).phase = .idle ∧ (s.ticked [false, false]).pendingWord = w := by
  have hp : s.phase = .delayingEnd := h.phase
  have hfirst := State.ticked_of_counts (levels := [false]) ha (fun _ _ => .inr (.inl hp))
    (by rw [State.limit_of_delayingEnd hp]; exact h.ticks.le)
  have hsecond : s.ticked [false, false] = _ := State.ticked_releases (levels := [false]) false ha hp h.ticks
  rw [hfirst, hsecond]
  exact ⟨hp, rfl, h.pendingWord_eq⟩

/-- Settles O50: the frame leaves the word complete `DELAY - 1` ticks into `DelayingEnd` (`State.receiving_of_frame`),
so that the first of the two spaces stays there and the second releases the word, which the `Read` collects. -/
theorem nominalFrameDecodesToItsWord : Obligations.NominalFrameDecodesToItsWord := by
  intro s w rest ha hi hp hword hbits hd ht hw hin
  have hframe := State.receiving_of_frame ha hp hword hbits hd ht hw
  rw [trace_frame_spaces_read] at hin
  obtain ⟨hfirst, hsecond, hpending⟩ := hframe.ticked_spaces (by simpa using ha)
  rw [← State.ticked_append] at hfirst hsecond hpending
  have hlength := frameLevels_length s.params.delay s.params.numBits w
  have htotal : (frameLevels s.params.delay s.params.numBits w ++ [false, false]).length =
      2 * s.params.delay * (s.params.numBits + 1) + 2 := by
    rw [List.length_append, hlength]
    rfl
  refine ⟨⟨_, run_ticks_take ha hi hin (by omega), ?_⟩, ?_, ?_⟩
  · rw [← hlength, List.take_length_add_append, State.ticked_withInputs]
    exact hfirst
  · have hrun := run_ticks ha hi hin
    rw [htotal, State.ticked_withInputs] at hrun
    exact ⟨_, hrun, hsecond, hpending, State.ticked_reads _ _⟩
  · have hrun := run_ticks_read ha hi hin hsecond
    rw [htotal] at hrun
    refine ⟨_, hrun, rfl, ?_, rfl⟩
    rw [State.collect_eq, State.withInputs_reads, State.withInputs_pendingWord, State.ticked_reads, hpending]

end Sys2Proof.Machine
end

section
/-! SUPPORT and proofs for the encoding (spec/30_encoding.md section 2): the words of the four kinds of event, every
word as one of them, and the rows of the table. -/

namespace Sys2Proof

/-! ### The words of the four kinds of event -/

theorem decode_nopWord (ph : PhaseCode) (l r : Bool) (pin : Pin) :
    decode (packWord EventKind.nop.code ph l r) pin = .ok .nop := by
  simp [decode]

theorem decode_initWord (ph : PhaseCode) (l r : Bool) (pin : Pin) :
    decode (packWord EventKind.init.code ph l r) pin = .ok (.init pin) := by
  simp [decode]

theorem decode_stepWord (p : Phase) (l r : Bool) (pin : Pin) :
    decode (packWord EventKind.step.code p.code l r) pin = .ok (decodeStep p l r) := by
  simp [decode]

theorem decode_readWord (p : Phase) (l r : Bool) (pin : Pin) :
    decode (packWord EventKind.read.code p.code l r) pin = .ok (decodeRead p) := by
  simp [decode]

/-- A STEP or READ word whose phase code is reserved is no instruction (R86). -/
theorem decode_reservedWord {k : EventKind} (hk : k = .step ∨ k = .read) {ph : PhaseCode}
    (hph : Phase.ofCode ph = none) (l r : Bool) (pin : Pin) :
    decode (packWord k.code ph l r) pin = .error .reservedPhase := by
  obtain rfl | rfl := hk
  · simp [decode, hph]
  · simp [decode, hph]

/-- Settles O1: row by row, the word that `encodeWord` writes is a word of the row's kind of event, and the table gives
the row back. -/
theorem decodeOfEncodeIsTheInstruction : Obligations.DecodeOfEncodeIsTheInstruction := by
  intro i hwf
  cases i with
  | nop => exact decode_nopWord _ _ _ _
  | stepStandbyHold => exact decode_stepWord .standby false false _
  | stepStandbyTrig => exact decode_stepWord .standby true false _
  | stepDelay level => exact decode_stepWord .delaying level false _
  | stepWaitStay0 => exact decode_stepWord .waiting false false _
  | stepWaitFall => exact decode_stepWord .waiting false true _
  | stepWaitRise => exact decode_stepWord .waiting true false _
  | stepWaitStay1 => exact decode_stepWord .waiting true true _
  | stepEnd level => exact decode_stepWord .delayingEnd level false _
  | stepIdle level => exact decode_stepWord .idle level false _
  | readBusy p =>
    have hread : decodeRead p = .readBusy p := by
      cases p with
      | idle => cases hwf
      | _ => rfl
    exact (decode_readWord p false false _).trans (congrArg _ hread)
  | readIdle => exact decode_readWord .idle false false _
  | init pin => exact decode_initWord _ _ _ pin

/-! ### Every word is one of them -/

theorem EventKind.code_ofCode (c : BitVec 2) : (EventKind.ofCode c).code = c := by revert c; decide

/-- A dispatch word is its four fields (R72). -/
theorem packWord_fields (d : DispatchWord) :
    packWord (opField d) (phaseField d) (levelField d) (referenceField d) = d := by
  revert d; decide

/-- The word of some kind of event, with any phase code. -/
theorem exists_packWord (d : DispatchWord) :
    ∃ (k : EventKind) (ph : PhaseCode) (l r : Bool), d = packWord k.code ph l r :=
  ⟨EventKind.ofCode (opField d), phaseField d, levelField d, referenceField d, by
    rw [EventKind.code_ofCode, packWord_fields]⟩

/-- The codes 5, 6 and 7 are reserved (R71). -/
theorem Phase.ofCode_eq_none (c : PhaseCode) : Phase.ofCode c = none ↔ 5 ≤ c.toNat := by revert c; decide

theorem Phase.eq_code_of_ofCode {c : PhaseCode} {p : Phase} (h : Phase.ofCode c = some p) : c = p.code := by
  cases p with
  | standby => revert c; decide
  | delaying => revert c; decide
  | waiting => revert c; decide
  | delayingEnd => revert c; decide
  | idle => revert c; decide

/-- Settles O4: of the four kinds of word only STEP and READ examine the phase code, and a reserved one is their only
error. -/
theorem reservedWordsAreRejectedByName : Obligations.ReservedWordsAreRejectedByName := by
  intro d pin
  obtain ⟨k, ph, l, r, rfl⟩ := exists_packWord d
  rw [opField_packWord, phaseField_packWord, ← Phase.ofCode_eq_none]
  cases k with
  | nop =>
    rw [decode_nopWord]
    simp [EventKind.code]
  | init =>
    rw [decode_initWord]
    simp [EventKind.code]
  | step =>
    cases hph : Phase.ofCode ph with
    | none =>
      rw [decode_reservedWord (.inl rfl) hph]
      simp [EventKind.code, eq_comm]
    | some p =>
      rw [Phase.eq_code_of_ofCode hph, decode_stepWord]
      simp [EventKind.code]
  | read =>
    cases hph : Phase.ofCode ph with
    | none =>
      rw [decode_reservedWord (.inr rfl) hph]
      simp [EventKind.code, eq_comm]
    | some p =>
      rw [Phase.eq_code_of_ofCode hph, decode_readWord]
      simp [EventKind.code]

/-- Settles O5: each word is evaluated. -/
theorem wordsOfTheTableDecode : Obligations.WordsOfTheTableDecode :=
  ⟨rfl, rfl, rfl, rfl, rfl, rfl, rfl, rfl, rfl, rfl⟩

/-! ### The rows of the table -/

/-- What O2 says of a word and an instruction, without the decoder between them. -/
def Instr.FitsWord (i : Instr) (d : DispatchWord) : Prop :=
  i.wf = true ∧ (rowOf i).holds d = true ∧ encodeWord i &&& (rowOf i).mask = d &&& (rowOf i).mask ∧
    (i.isStep = true → levelField (encodeWord i) = levelField d)

theorem nop_fitsWord (ph : PhaseCode) (l r : Bool) : Instr.nop.FitsWord (packWord EventKind.nop.code ph l r) := by
  unfold Instr.FitsWord
  revert ph l r; decide

/-- The row of INIT does not examine the pin operand, which the word does not hold (R73). -/
theorem init_fitsWord (pin : Pin) (ph : PhaseCode) (l r : Bool) :
    (Instr.init pin).FitsWord (packWord EventKind.init.code ph l r) := by
  change (Instr.init ⟨0⟩).FitsWord (packWord EventKind.init.code ph l r)
  unfold Instr.FitsWord
  revert ph l r; decide

theorem decodeStep_fitsWord (p : Phase) (l r : Bool) :
    (decodeStep p l r).FitsWord (packWord EventKind.step.code p.code l r) := by
  unfold Instr.FitsWord
  cases p with
  | standby => revert l r; decide
  | delaying => revert l r; decide
  | waiting => revert l r; decide
  | delayingEnd => revert l r; decide
  | idle => revert l r; decide

theorem decodeRead_fitsWord (p : Phase) (l r : Bool) :
    (decodeRead p).FitsWord (packWord EventKind.read.code p.code l r) := by
  unfold Instr.FitsWord
  cases p with
  | standby => revert l r; decide
  | delaying => revert l r; decide
  | waiting => revert l r; decide
  | delayingEnd => revert l r; decide
  | idle => revert l r; decide

/-- Settles O2: a word that decodes is the word of one of the four kinds of event, and each kind's instruction
fits it. -/
theorem decodedWordIsInTheRowOfItsInstruction : Obligations.DecodedWordIsInTheRowOfItsInstruction := by
  intro d pin i h
  change i.FitsWord d
  obtain ⟨k, ph, l, r, rfl⟩ := exists_packWord d
  cases k with
  | nop =>
    cases (decode_nopWord ph l r pin).symm.trans h
    exact nop_fitsWord ph l r
  | init =>
    cases (decode_initWord ph l r pin).symm.trans h
    exact init_fitsWord pin ph l r
  | step =>
    cases hph : Phase.ofCode ph with
    | none => cases (decode_reservedWord (.inl rfl) hph l r pin).symm.trans h
    | some p =>
      obtain rfl := Phase.eq_code_of_ofCode hph
      cases (decode_stepWord p l r pin).symm.trans h
      exact decodeStep_fitsWord p l r
  | read =>
    cases hph : Phase.ofCode ph with
    | none => cases (decode_reservedWord (.inr rfl) hph l r pin).symm.trans h
    | some p =>
      obtain rfl := Phase.eq_code_of_ofCode hph
      cases (decode_readWord p l r pin).symm.trans h
      exact decodeRead_fitsWord p l r

/-- Two rows whose columns `match` differ on a bit that both examine have no word in common. -/
theorem Row.not_holds_both {a b : Row} (hab : a.pattern &&& b.mask ≠ b.pattern &&& a.mask) (d : DispatchWord) :
    ¬ (a.holds d = true ∧ b.holds d = true) := by
  rintro ⟨ha, hb⟩
  rw [Row.holds, beq_iff_eq] at ha hb
  apply hab
  rw [← ha, ← hb, BitVec.and_assoc, BitVec.and_assoc, BitVec.and_comm a.mask]

/-- Settles O3: any two rows differ on a bit that both examine, and the words are counted. -/
theorem everyWordIsInExactlyOneRowUnlessReserved : Obligations.EveryWordIsInExactlyOneRowUnlessReserved := by
  have hdiffer : table.Pairwise fun a b => a.pattern &&& b.mask ≠ b.pattern &&& a.mask := by decide
  refine ⟨hdiffer.imp fun hab => Row.not_holds_both hab, ?_⟩
  decide

end Sys2Proof
end

section
/-! SUPPORT and proofs for single instructions (spec/40 to 42): what `exec` can do, said once, where a STEP or READ row
runs, and the rows one by one. -/

namespace Sys2Proof.Machine

/-! ### The row of an event -/

@[simp] theorem decodeStep_isStep (p : Phase) (l r : Bool) : (decodeStep p l r).isStep = true := by
  cases p with
  | standby => cases l <;> rfl
  | waiting => cases l <;> cases r <;> rfl
  | _ => rfl

@[simp] theorem decodeStep_isRead (p : Phase) (l r : Bool) : (decodeStep p l r).isRead = false := by
  cases p with
  | standby => cases l <;> rfl
  | waiting => cases l <;> cases r <;> rfl
  | _ => rfl

@[simp] theorem decodeStep_wf (p : Phase) (l r : Bool) : (decodeStep p l r).wf = true := by
  cases p with
  | standby => cases l <;> rfl
  | waiting => cases l <;> cases r <;> rfl
  | _ => rfl

@[simp] theorem decodeRead_isStep (p : Phase) : (decodeRead p).isStep = false := by cases p <;> rfl
@[simp] theorem decodeRead_isRead (p : Phase) : (decodeRead p).isRead = true := by cases p <;> rfl
@[simp] theorem decodeRead_wf (p : Phase) : (decodeRead p).wf = true := by cases p <;> rfl

/-- The only STEP rows that a state presents are those the table picks for it, one for each sampled level (R72). -/
theorem eq_decodeStep_of_presented {i : Instr} {s : State} (h : i.isStep = true) (hp : s.phase = phaseFor s i)
    (hr : s.referenceLevel = referenceFor s i) : ∃ level, i = decodeStep s.phase level s.referenceLevel := by
  rw [hp, hr]
  cases i with
  | stepStandbyHold => exact ⟨false, rfl⟩
  | stepStandbyTrig => exact ⟨true, rfl⟩
  | stepDelay level => exact ⟨level, rfl⟩
  | stepWaitStay0 => exact ⟨false, rfl⟩
  | stepWaitFall => exact ⟨false, rfl⟩
  | stepWaitRise => exact ⟨true, rfl⟩
  | stepWaitStay1 => exact ⟨true, rfl⟩
  | stepEnd level => exact ⟨level, rfl⟩
  | stepIdle level => exact ⟨level, rfl⟩
  | _ => cases h

/-- The only READ row that a state presents is the one the table picks for it (R72). -/
theorem eq_decodeRead_of_presented {i : Instr} {s : State} (h : i.isRead = true) (hwf : i.wf = true)
    (hp : s.phase = phaseFor s i) : i = decodeRead s.phase := by
  rw [hp]
  cases i with
  | readBusy p =>
    cases p with
    | idle => cases hwf
    | _ => rfl
  | readIdle => rfl
  | _ => cases h

/-- A row that the table picks for a state is presented by it (R72). -/
theorem presented_decodeStep (s : State) (level : Bool) :
    phaseFor s (decodeStep s.phase level s.referenceLevel) = s.phase ∧
      referenceFor s (decodeStep s.phase level s.referenceLevel) = s.referenceLevel := by
  cases hp : s.phase with
  | standby => cases level <;> exact ⟨rfl, rfl⟩
  | waiting => cases level <;> cases hr : s.referenceLevel <;> exact ⟨rfl, rfl⟩
  | _ => exact ⟨rfl, rfl⟩

theorem presented_decodeRead (s : State) :
    phaseFor s (decodeRead s.phase) = s.phase ∧ referenceFor s (decodeRead s.phase) = s.referenceLevel := by
  cases s.phase <;> exact ⟨rfl, rfl⟩

/-! ### What `exec` can do -/

/-- An instruction is NOP, INIT, a STEP row or a READ row (R73). -/
theorem kind_cases (i : Instr) : i = .nop ∨ (∃ pin, i = .init pin) ∨ i.isStep = true ∨ i.isRead = true := by
  cases i with
  | nop => exact .inl rfl
  | init pin => exact .inr (.inl ⟨pin, rfl⟩)
  | readBusy p => exact .inr (.inr (.inr rfl))
  | readIdle => exact .inr (.inr (.inr rfl))
  | _ => exact .inr (.inr (.inl rfl))

/-- Everything an instruction can do: nothing (NOP), the effect of `Init`, a tick at some level through the row that the
table picks for the state, or a `Read` through the row that the table picks for it. -/
theorem exec_next_cases {i : Instr} {s t : State} (h : exec i s = .next t) :
    (i = .nop ∧ t = s) ∨ (∃ pin, i = .init pin ∧ t = s.initialise pin) ∨
      (∃ level, i = decodeStep s.phase level s.referenceLevel ∧ s.initialised = true ∧ t = s.tick level) ∨
      (i = decodeRead s.phase ∧ s.initialised = true ∧ t = s.readArm) := by
  have hinit (hrow : i.isStep = true ∨ i.isRead = true) : s.initialised = true := by
    obtain ⟨ok, arm, hexec, -⟩ := exec_eq_onEvent i s hrow
    rw [hexec, State.onEvent_next] at h
    exact h.1
  obtain ⟨hwf, hp, hr⟩ := presented_of_exec_next i s t h
  obtain rfl | ⟨pin, rfl⟩ | hstep | hread := kind_cases i
  · cases h
    exact .inl ⟨rfl, rfl⟩
  · cases h
    exact .inr (.inl ⟨pin, rfl, rfl⟩)
  · have hi := hinit (.inl hstep)
    obtain ⟨level, rfl⟩ := eq_decodeStep_of_presented hstep hp hr
    cases (exec_decodeStep s level hi).symm.trans h
    exact .inr (.inr (.inl ⟨level, rfl, hi, rfl⟩))
  · have hi := hinit (.inr hread)
    obtain rfl := eq_decodeRead_of_presented hread hwf hp
    cases (exec_decodeRead hi).symm.trans h
    exact .inr (.inr (.inr ⟨rfl, hi, rfl⟩))

/-! ### Where a STEP or READ row runs -/

/-- Settles O28: `onEvent` hands over exactly where the row's condition holds. -/
theorem rowRunsExactlyWhereTheStatePresentsIt : Obligations.RowRunsExactlyWhereTheStatePresentsIt := by
  intro i s hwf hrow hi
  obtain ⟨ok, arm, hexec, hok⟩ := exec_eq_onEvent i s hrow
  refine ⟨fun ⟨hp, hr⟩ => ⟨arm s, ?_⟩, fun hnot => ?_⟩
  · rw [hexec, State.onEvent_run s ok arm hi (hok.2 ⟨hwf, hp.symm, hr.symm⟩)]
  · have hfalse : ok = false := by
      rw [← Bool.not_eq_true, hok]
      rintro ⟨-, hp, hr⟩
      exact hnot ⟨hp.symm, hr.symm⟩
    rw [hexec, State.onEvent_refused]
    exact .inr ⟨hi, hfalse, rfl⟩

/-- Settles O27: `onEvent` asks for the first `Init` before anything else. -/
theorem stepAndReadAreRefusedBeforeInit : Obligations.StepAndReadAreRefusedBeforeInit := by
  intro i s hrow hi
  obtain ⟨ok, arm, hexec, -⟩ := exec_eq_onEvent i s hrow
  rw [hexec, State.onEvent_refused]
  exact .inl ⟨hi, rfl⟩

/-! ### The rows one by one -/

/-- The row that the table picks for a phase and a reference runs as a tick there. -/
theorem exec_row {s : State} {p : Phase} {r : Bool} (level : Bool) (hi : s.initialised = true) (hp : s.phase = p)
    (hr : s.referenceLevel = r) : exec (decodeStep p level r) s = .next (s.tick level) := by
  subst hp hr
  exact exec_decodeStep s level hi

/-- Settles O16: NOP has no arm. -/
theorem nopChangesNothing : Obligations.NopChangesNothing := exec_nop

/-- Settles O18: the row is a tick at a mark in `Standby`. -/
theorem standbyTriggersOnAMark : Obligations.StandbyTriggersOnAMark := by
  intro s hi hp
  rw [← State.tick_of_standby_mark hp]
  exact exec_row true hi hp rfl

/-- Settles O19: the row is a tick in `Delaying`. -/
theorem delayingCountsThenCaptures : Obligations.DelayingCountsThenCaptures := by
  intro s level hi hp
  rw [← State.tick_of_delaying level hp]
  exact exec_row level hi hp rfl

/-- Settles O20: the row is a tick at a mark in `Waiting`, where the reference is a space. -/
theorem riseStoresAOneBit : Obligations.RiseStoresAOneBit := by
  intro s hi hp hr
  have hchange := State.tick_of_waiting_change (level := true) hp (by simp [hr])
  exact (exec_row true hi hp hr).trans (congrArg _ hchange)

/-- Settles O21: the row is a tick at a space in `Waiting`, where the reference is a mark. -/
theorem fallAcceptsAZeroBit : Obligations.FallAcceptsAZeroBit := by
  intro s hi hp hr
  have hchange := State.tick_of_waiting_change (level := false) hp (by simp [hr])
  exact (exec_row false hi hp hr).trans (congrArg _ hchange)

/-- Settles O22: either row is a tick in `Waiting` at the reference level. -/
theorem stayCountsThenTimesOut : Obligations.StayCountsThenTimesOut := by
  intro s hi hp after
  have hstay : s.tick s.referenceLevel = after := State.tick_of_waiting_stay hp
  refine ⟨fun hr => ?_, fun hr => ?_⟩
  · rw [← hstay, hr]
    exact exec_row false hi hp hr
  · rw [← hstay, hr]
    exact exec_row true hi hp hr

/-- Settles O23: the row is a tick in `DelayingEnd`. -/
theorem delayingEndCountsThenIdles : Obligations.DelayingEndCountsThenIdles := by
  intro s level hi hp
  rw [← State.tick_of_delayingEnd level hp]
  exact exec_row level hi hp rfl

/-- Settles O37: the re-arm and `Init` write the same values; `Init` also writes the pin and the mark of the first
`Init`, which here hold already. -/
theorem rearmedStateIsTheStateAfterInit : Obligations.RearmedStateIsTheStateAfterInit := by
  intro s hi hp
  refine ⟨s.collect, exec_readIdle_of_idle hi hp, ?_⟩
  rw [exec_init, State.initialise_eq, State.collect_eq, ← hi]

end Sys2Proof.Machine
end

section
/-! SUPPORT and proofs for the step (R8, R13, R72, R73): the row of the event at an edge, what a step can do, said once,
and the state presenting an instruction. -/

namespace Sys2Proof.Machine

/-! ### The row of the event at an edge -/

/-- The instruction of the event at an edge, by the kind of event (R72, R73). -/
def State.rowAt (s : State) (e : Edge) : Instr :=
  match e.kind with
  | .nop => .nop
  | .step => decodeStep s.phase (s.sampledLevel e) s.referenceLevel
  | .read => decodeRead s.phase
  | .init => .init e.pin

section
variable {s : State} {e : Edge}

theorem State.rowAt_of_nop (hk : e.kind = .nop) : s.rowAt e = .nop := by simp [State.rowAt, hk]

theorem State.rowAt_of_step (hk : e.kind = .step) :
    s.rowAt e = decodeStep s.phase (s.sampledLevel e) s.referenceLevel := by
  simp [State.rowAt, hk]

theorem State.rowAt_of_read (hk : e.kind = .read) : s.rowAt e = decodeRead s.phase := by simp [State.rowAt, hk]

theorem State.rowAt_of_init (hk : e.kind = .init) : s.rowAt e = .init e.pin := by simp [State.rowAt, hk]

/-- The dispatch word of every event in every state decodes, to the row of its kind (R72, R86). -/
theorem State.decode_dispatchWord (s : State) (e : Edge) : decode (s.dispatchWord e) e.pin = .ok (s.rowAt e) := by
  unfold State.dispatchWord State.rowAt
  cases e.kind with
  | nop => exact decode_nopWord _ _ _ _
  | step => exact decode_stepWord _ _ _ _
  | read => exact decode_readWord _ _ _ _
  | init => exact decode_initWord _ _ _ _

theorem State.fetch_eq_rowAt (s : State) : s.fetch = .ok (s.rowAt s.nextEdge) := s.decode_dispatchWord s.nextEdge

end

/-- STEP and READ rows are neither NOP nor INIT. -/
theorem ne_nop_of_row {i : Instr} (h : i.isStep = true ∨ i.isRead = true) : i ≠ .nop := by
  rintro rfl
  simp [Instr.isStep, Instr.isRead] at h

theorem ne_init_of_row {i : Instr} (h : i.isStep = true ∨ i.isRead = true) (pin : Pin) : i ≠ .init pin := by
  rintro rfl
  simp [Instr.isStep, Instr.isRead] at h

/-- Settles O7: the word of the next event decodes to the row of its kind, and the table picks that row for the phase
and the reference which the state holds. -/
theorem everyEventPresentsALegalInstruction : Obligations.EveryEventPresentsALegalInstruction := by
  intro s
  refine ⟨s.rowAt s.nextEdge, s.fetch_eq_rowAt, ?_⟩
  cases hk : s.nextEdge.kind with
  | nop =>
    rw [State.rowAt_of_nop hk]
    exact ⟨rfl, rfl, rfl, by simp [Instr.isStep], by simp [Instr.isRead], by simp, by simp⟩
  | step =>
    rw [State.rowAt_of_step hk]
    obtain ⟨hp, hr⟩ := presented_decodeStep s (s.sampledLevel s.nextEdge)
    exact ⟨decodeStep_wf _ _ _, hp, hr, by simp, by simp,
      by simpa using ne_nop_of_row (.inl (decodeStep_isStep _ _ _)),
      by simpa using ne_init_of_row (.inl (decodeStep_isStep _ _ _)) _⟩
  | read =>
    rw [State.rowAt_of_read hk]
    obtain ⟨hp, hr⟩ := presented_decodeRead s
    exact ⟨decodeRead_wf _, hp, hr, by simp, by simp,
      by simpa using ne_nop_of_row (.inr (decodeRead_isRead _)),
      by simpa using ne_init_of_row (.inr (decodeRead_isRead _)) _⟩
  | init =>
    rw [State.rowAt_of_init hk]
    exact ⟨rfl, rfl, rfl, by simp [Instr.isStep], by simp [Instr.isRead], by simp, by simp⟩

/-! ### What a step can do -/

section
variable {s : State} {e : Edge}

/-- The effect of the event at an edge on everything but the inputs (R100, R110, R140, R141, R143). -/
def State.effect (s : State) (e : Edge) : State :=
  match e.kind with
  | .nop => s
  | .step => s.tick (s.sampledLevel e)
  | .read => s.readArm
  | .init => s.initialise e.pin

theorem State.effect_of_nop (hk : e.kind = .nop) : s.effect e = s := by simp [State.effect, hk]
theorem State.effect_of_step (hk : e.kind = .step) : s.effect e = s.tick (s.sampledLevel e) := by
  simp [State.effect, hk]
theorem State.effect_of_read (hk : e.kind = .read) : s.effect e = s.readArm := by simp [State.effect, hk]
theorem State.effect_of_init (hk : e.kind = .init) : s.effect e = s.initialise e.pin := by simp [State.effect, hk]

/-- Where the event at an edge has a meaning: after the first `Init`, and for `Init` and no event always (R183). -/
def State.Accepts (s : State) (e : Edge) : Prop := s.initialised = true ∨ e.kind = .init ∨ e.kind = .nop

/-- The nine STEP rows, the two READ rows, NOP and INIT in one equation. -/
theorem exec_rowAt_next (h : s.Accepts e) : exec (s.rowAt e) s = .next (s.effect e) := by
  cases hk : e.kind with
  | nop => rw [State.rowAt_of_nop hk, State.effect_of_nop hk, exec_nop]
  | init => rw [State.rowAt_of_init hk, State.effect_of_init hk, exec_init]
  | step =>
    have hi : s.initialised = true := by simpa [State.Accepts, hk] using h
    rw [State.rowAt_of_step hk, State.effect_of_step hk]
    exact exec_decodeStep s _ hi
  | read =>
    have hi : s.initialised = true := by simpa [State.Accepts, hk] using h
    rw [State.rowAt_of_read hk, State.effect_of_read hk, exec_decodeRead hi]

/-- An event without a meaning is refused by name (R183; D11). -/
theorem exec_rowAt_refused (hi : s.initialised = false) (hk : e.kind = .step ∨ e.kind = .read) :
    exec (s.rowAt e) s = .refused .beforeInit := by
  refine stepAndReadAreRefusedBeforeInit _ _ ?_ hi
  obtain hk | hk := hk
  · rw [State.rowAt_of_step hk]
    exact .inl (decodeStep_isStep _ _ _)
  · rw [State.rowAt_of_read hk]
    exact .inr (decodeRead_isRead _)

/-- A step runs the row of the next event on the state with that event taken (R8). -/
theorem step_eq_exec_rowAt (ha : s.params.admissible = true) : step s = exec (s.rowAt s.nextEdge) s.consume :=
  step_of_fetch s _ ha s.fetch_eq_rowAt

theorem step_of_accepts (ha : s.params.admissible = true) (h : s.Accepts s.nextEdge) :
    step s = .next (s.consume.effect s.nextEdge) :=
  (step_eq_exec_rowAt ha).trans (exec_rowAt_next (s := s.consume) h)

theorem step_of_not_initialised (ha : s.params.admissible = true) (hi : s.initialised = false)
    (hk : s.nextEdge.kind = .step ∨ s.nextEdge.kind = .read) : step s = .refused .beforeInit :=
  (step_eq_exec_rowAt ha).trans (exec_rowAt_refused (s := s.consume) hi hk)

/-- Everything a step can do: it completes exactly where the parameters are admissible and the event has a meaning, in
the effect of the event on the state with the event taken. -/
theorem step_next_iff (t : State) :
    step s = .next t ↔
      s.params.admissible = true ∧ s.Accepts s.nextEdge ∧ t = s.consume.effect s.nextEdge := by
  refine ⟨fun h => ?_, fun ⟨ha, hacc, ht⟩ => ht ▸ step_of_accepts ha hacc⟩
  obtain ⟨ha, -⟩ := step_next s t h
  have hacc : s.Accepts s.nextEdge := by
    by_contra hnot
    simp only [State.Accepts, not_or, Bool.not_eq_true] at hnot
    obtain ⟨hi, hinit, hnop⟩ := hnot
    have hk : s.nextEdge.kind = .step ∨ s.nextEdge.kind = .read := by
      cases hkind : s.nextEdge.kind with
      | step => exact .inl rfl
      | read => exact .inr rfl
      | init => exact absurd hkind hinit
      | nop => exact absurd hkind hnop
    cases (step_of_not_initialised ha hi hk).symm.trans h
  cases (step_of_accepts ha hacc).symm.trans h
  exact ⟨ha, hacc, rfl⟩

end

/-- Settles O8: the event is fetched in every state (`step_eq_exec_rowAt`), so that a step stops only for want of an
`Init` or of admissible parameters. -/
theorem stepStopsOnlyWithoutInitOrWithBadParameters : Obligations.StepStopsOnlyWithoutInitOrWithBadParameters := by
  intro s
  refine ⟨fun ha h => ⟨_, step_of_accepts ha h⟩, step_of_not_initialised, fun ha => ?_⟩
  simp [step, ha]

/-- Settles O6: the step fetches that instruction, and `consume` is the update named. -/
theorem stepRunsTheDecodedInstruction : Obligations.StepRunsTheDecodedInstruction :=
  fun s i ha hdecode => ⟨step_of_fetch s i ha hdecode, rfl⟩

/-! ### Events that are written down -/

/-- The step of an edge that is written down (R13). -/
theorem step_of_inputs {s : State} {e : Edge} {rest : List Edge} (ha : s.params.admissible = true)
    (hin : s.inputs = e :: rest) : step s = exec (s.rowAt e) (s.withInputs (e.leftover ++ rest)) := by
  rw [step_eq_exec_rowAt ha, State.nextEdge_of_inputs hin, State.consume_of_inputs hin]

/-- Only an edge with both strobes and no `rst` leaves something for the next step (R13). -/
theorem Edge.leftover_eq_nil {e : Edge} (h : e.rst = true ∨ (e.rd && e.tick) = false) : e.leftover = [] := by
  unfold Edge.leftover
  obtain h | h := h
  · simp [h]
  · simp [Bool.and_assoc, h]

/-- Settles O10: the strobes give the kind of event and what is left of the edge. -/
theorem eventsOfAClockEdge : Obligations.EventsOfAClockEdge := by
  intro s e rest ha hin
  have hstep := step_of_inputs ha hin
  refine ⟨fun hrst => ?_, fun hrst hrd htick => ?_, fun hrst hrd htick => ?_, fun hrst hrd htick => ?_,
    fun hrst hrd htick => ?_⟩
  · rw [hstep, State.rowAt_of_init (by simp [Edge.kind, hrst]), Edge.leftover_eq_nil (.inl hrst)]
    rfl
  · rw [hstep, State.rowAt_of_nop (by simp [Edge.kind, hrst, hrd, htick]), Edge.leftover_eq_nil (by simp [hrd])]
    rfl
  · rw [hstep, State.rowAt_of_read (by simp [Edge.kind, hrst, hrd]), Edge.leftover_eq_nil (by simp [htick])]
    rfl
  · rw [hstep, State.rowAt_of_step (by simp [Edge.kind, hrst, hrd, htick]), Edge.leftover_eq_nil (by simp [hrd])]
    rfl
  · have hread : step (s.withInputs ({ e with tick := false } :: { e with rd := false } :: rest)) = _ :=
      step_of_inputs (by simpa using ha) rfl
    have hboth : e.leftover = [{ e with rd := false }] := by simp [Edge.leftover, hrst, hrd, htick]
    have hnone : ({ e with tick := false } : Edge).leftover = [] := Edge.leftover_eq_nil (.inr (by simp))
    refine hstep.trans (Eq.trans ?_ hread.symm)
    rw [State.rowAt_of_read (by simp [Edge.kind, hrst, hrd]), State.rowAt_of_read (by simp [Edge.kind, hrst, hrd]),
      hboth, hnone]
    rfl

/-- A step depends on the parameters, on the instruction fetched and on the state with the event taken. -/
theorem step_congr {s u : State} (hparams : s.params = u.params) (hfetch : s.fetch = u.fetch)
    (hconsume : s.consume = u.consume) : step s = step u := by
  simp only [step, hparams, hfetch, hconsume]

/-- Settles O12: the free edge is fetched and taken as the same edge written down would be. -/
theorem edgeIsFreeWhereNoneIsWrittenDown : Obligations.EdgeIsFreeWhereNoneIsWrittenDown := by
  intro s hin
  have hnext : s.nextEdge = Config.freeEdge s.edgeCount := by simp [State.nextEdge, hin]
  refine step_congr rfl ?_ ?_
  · rw [State.fetch_eq_rowAt, State.fetch_eq_rowAt, hnext]
    rfl
  · simp [State.consume, State.nextInputs, State.nextCount, hin, State.nextEdge]

/-- Settles O32: the row of an edge depends on its levels through the configured pin alone, and nothing of the edge is
left. -/
theorem otherPinsAreNotSampled : Obligations.OtherPinsAreNotSampled := by
  intro s e pins rest hin hone hpin
  have hlevel : s.sampledLevel { e with highPins := pins } = s.sampledLevel e := by
    simp [State.sampledLevel, Edge.pinRead, hpin]
  have hin' : (s.withInputs ({ e with highPins := pins } :: rest)).inputs = { e with highPins := pins } :: rest := rfl
  refine step_congr (u := s.withInputs ({ e with highPins := pins } :: rest)) rfl ?_ ?_
  · rw [State.fetch_eq_rowAt, State.fetch_eq_rowAt, State.nextEdge_of_inputs hin, State.nextEdge_of_inputs hin']
    unfold State.rowAt
    rw [← hlevel]
    rfl
  · rw [State.consume_of_inputs hin, State.consume_of_inputs hin', Edge.leftover_eq_nil (.inr hone),
      Edge.leftover_eq_nil (e := { e with highPins := pins }) (.inr hone), State.withInputs_withInputs]

/-! ### The state that presents an instruction -/

/-- The edge made for an instruction presents it: its kind is that of the row, and the pin is at the row's level. -/
theorem State.rowAt_edgeFor (s : State) {i : Instr} (hwf : i.wf = true) :
    (s.presenting i).rowAt (edgeFor s.inputPin i) = i := by
  have hstep (l : Bool) :
      (s.presenting i).rowAt (tickEdge s.inputPin l) = decodeStep (phaseFor s i) l (referenceFor s i) := by
    rw [State.rowAt_of_step (tickEdge_kind _ l)]
    simp [State.sampledLevel, logicalLevel]
  cases i with
  | nop => rfl
  | init pin => rfl
  | readIdle => rfl
  | readBusy p =>
    cases p with
    | idle => cases hwf
    | _ => rfl
  | stepStandbyHold => exact hstep false
  | stepStandbyTrig => exact hstep true
  | stepDelay level => exact hstep level
  | stepWaitStay0 => exact hstep false
  | stepWaitFall => exact hstep false
  | stepWaitRise => exact hstep true
  | stepWaitStay1 => exact hstep true
  | stepEnd level => exact hstep level
  | stepIdle level => exact hstep level

/-- The edge made for an instruction has at most one strobe. -/
@[simp] theorem edgeFor_leftover (pin : Pin) (i : Instr) : (edgeFor pin i).leftover = [] := by
  cases i <;> rfl

/-- Settles O9: the presented edge is the next one, it presents the instruction, and nothing of it is left. -/
theorem presentedInstructionIsTheOneTheStepRuns : Obligations.PresentedInstructionIsTheOneTheStepRuns := by
  intro s i hwf ha
  have hstep := step_of_inputs (s := s.presenting i) ha rfl
  rw [State.rowAt_edgeFor s hwf, edgeFor_leftover] at hstep
  exact hstep

/-! ### The tick period -/

/-- The state of the same block with another tick period. -/
def State.withPeriod (s : State) (d : Nat) : State := { s with params := { s.params with tTickNanos := d } }

/-- A tick does not look at the tick period. -/
theorem State.tick_withPeriod (s : State) (level : Bool) (d : Nat) :
    (s.withPeriod d).tick level = (s.tick level).withPeriod d := by
  have hphase : (s.withPeriod d).phase = s.phase := rfl
  cases hp : s.phase with
  | standby =>
    cases level with
    | false => rw [State.tick_of_standby_space hp, State.tick_of_standby_space (hphase.trans hp)]; rfl
    | true => rw [State.tick_of_standby_mark hp, State.tick_of_standby_mark (hphase.trans hp)]; rfl
  | delaying =>
    rw [State.tick_of_delaying level hp, State.tick_of_delaying level (hphase.trans hp),
      apply_ite (State.withPeriod · d)]
    rfl
  | waiting =>
    by_cases hl : level = s.referenceLevel
    · subst hl
      refine (State.tick_of_waiting_stay (hphase.trans hp)).trans ?_
      rw [State.tick_of_waiting_stay hp, apply_ite (State.withPeriod · d)]
      rfl
    · rw [State.tick_of_waiting_change hp hl, State.tick_of_waiting_change (hphase.trans hp) hl]; rfl
  | delayingEnd =>
    rw [State.tick_of_delayingEnd level hp, State.tick_of_delayingEnd level (hphase.trans hp),
      apply_ite (State.withPeriod · d)]
    rfl
  | idle => rw [State.tick_of_idle level hp, State.tick_of_idle level (hphase.trans hp)]; rfl

theorem State.readArm_withPeriod (s : State) (d : Nat) : (s.withPeriod d).readArm = s.readArm.withPeriod d := by
  unfold State.readArm
  rw [apply_ite (State.withPeriod · d)]
  rfl

theorem State.effect_withPeriod (s : State) (e : Edge) (d : Nat) :
    (s.withPeriod d).effect e = (s.effect e).withPeriod d := by
  cases hk : e.kind with
  | nop => rw [State.effect_of_nop hk, State.effect_of_nop hk]
  | step =>
    rw [State.effect_of_step hk, State.effect_of_step hk]
    exact State.tick_withPeriod s _ d
  | read => rw [State.effect_of_read hk, State.effect_of_read hk, State.readArm_withPeriod]
  | init => rw [State.effect_of_init hk, State.effect_of_init hk]; rfl

/-- R6 bounds the tick period by nothing but 0 (D15). -/
theorem admissible_withPeriod {s : State} {d : Nat} (hd : 0 < d) (ha : s.params.admissible = true) :
    (s.withPeriod d).params.admissible = true := by
  simp only [Params.admissible, Bool.and_eq_true, decide_eq_true_eq] at ha ⊢
  exact ⟨ha.1, hd⟩

/-- Settles O33: neither whether a step completes nor the effect of its event looks at the tick period. -/
theorem tickPeriodIsNeverRead : Obligations.TickPeriodIsNeverRead := by
  intro s t d hd h
  obtain ⟨ha, hacc, rfl⟩ := (step_next_iff t).1 h
  have heffect := State.effect_withPeriod s.consume s.nextEdge d
  exact (step_next_iff (s := s.withPeriod d) _).2 ⟨admissible_withPeriod hd ha, hacc, heffect.symm⟩

end Sys2Proof.Machine
end

section
/-! SUPPORT and proofs for what each row writes (R29), the edges of `phase` (R124) and the values that a `Read` returns
(R140 to R142). -/

namespace Sys2Proof.Machine

/-! ### The rows of a tick, with the state each leaves -/

/-- The outcomes of a tick: the row that runs, its condition, and the state it leaves (R112 to R120). -/
inductive State.TickRow (s : State) : Instr → State → Prop where
  | hold (hp : s.phase = .standby) : s.TickRow .stepStandbyHold { s with currentLevel := false }
  | trigger (hp : s.phase = .standby) :
    s.TickRow .stepStandbyTrig { s with currentLevel := true, phase := .delaying, tickCounter := 0#8 }
  | count (level : Bool) (hp : s.phase = .delaying) (hc : ¬ s.params.delay < (s.tickCounter + 1#8).toNat) :
    s.TickRow (.stepDelay level) { s with currentLevel := level, tickCounter := s.tickCounter + 1#8 }
  | capture (level : Bool) (hp : s.phase = .delaying) (hc : s.params.delay < (s.tickCounter + 1#8).toNat) :
    s.TickRow (.stepDelay level)
      { s with currentLevel := level, referenceLevel := level, tickCounter := 0#8, phase := .waiting }
  | stay (i : Instr) (hi : i = .stepWaitStay0 ∨ i = .stepWaitStay1) (hp : s.phase = .waiting)
    (hc : ¬ s.params.timeout < (s.tickCounter + 1#8).toNat) :
    s.TickRow i { s with currentLevel := s.referenceLevel, tickCounter := s.tickCounter + 1#8 }
  | timeout (i : Instr) (hi : i = .stepWaitStay0 ∨ i = .stepWaitStay1) (hp : s.phase = .waiting)
    (hc : s.params.timeout < (s.tickCounter + 1#8).toNat) :
    s.TickRow i
      { s with
        currentLevel := s.referenceLevel
        tickCounter := s.tickCounter + 1#8
        pendingWord := sentinel
        phase := .idle }
  | fall (hp : s.phase = .waiting) :
    s.TickRow .stepWaitFall
      { s with
        currentLevel := false
        bitsRemaining := s.bitsRemaining - 1#4
        tickCounter := 0#8
        phase := if s.bitsRemaining - 1#4 = 0#4 then .delayingEnd else .delaying }
  | rise (hp : s.phase = .waiting) :
    s.TickRow .stepWaitRise
      { s with
        currentLevel := true
        bitsRemaining := s.bitsRemaining - 1#4
        tickCounter := 0#8
        pendingWord := setbit s.pendingWord (s.bitsRemaining - 1#4).toNat
        phase := if s.bitsRemaining - 1#4 = 0#4 then .delayingEnd else .delaying }
  | finish (level : Bool) (hp : s.phase = .delayingEnd) (hc : ¬ s.params.delay < (s.tickCounter + 1#8).toNat) :
    s.TickRow (.stepEnd level) { s with currentLevel := level, tickCounter := s.tickCounter + 1#8 }
  | release (level : Bool) (hp : s.phase = .delayingEnd) (hc : s.params.delay < (s.tickCounter + 1#8).toNat) :
    s.TickRow (.stepEnd level) { s with currentLevel := level, tickCounter := s.tickCounter + 1#8, phase := .idle }
  | ignore (level : Bool) (hp : s.phase = .idle) : s.TickRow (.stepIdle level) { s with currentLevel := level }

/-- A tick has one of these outcomes, through the row that the table picks. -/
theorem State.tickRow (s : State) (level : Bool) :
    s.TickRow (decodeStep s.phase level s.referenceLevel) (s.tick level) := by
  cases hp : s.phase with
  | standby =>
    cases level with
    | false => exact State.tick_of_standby_space hp ▸ .hold hp
    | true => exact State.tick_of_standby_mark hp ▸ .trigger hp
  | delaying =>
    rw [State.tick_of_delaying level hp]
    split
    next hc => exact .capture level hp hc
    next hc => exact .count level hp hc
  | waiting =>
    by_cases hl : level = s.referenceLevel
    · subst hl
      have hi : decodeStep .waiting s.referenceLevel s.referenceLevel = .stepWaitStay0 ∨
          decodeStep .waiting s.referenceLevel s.referenceLevel = .stepWaitStay1 := by
        cases s.referenceLevel
        · exact .inl rfl
        · exact .inr rfl
      rw [State.tick_of_waiting_stay hp]
      split
      next hc => exact .timeout _ hi hp hc
      next hc => exact .stay _ hi hp hc
    · rw [State.tick_of_waiting_change hp hl]
      cases level with
      | false =>
        have hr : decodeStep .waiting false s.referenceLevel = .stepWaitFall :=
          congrArg (decodeStep .waiting false) (by simpa using hl : s.referenceLevel = true)
        exact hr ▸ .fall hp
      | true =>
        have hr : decodeStep .waiting true s.referenceLevel = .stepWaitRise :=
          congrArg (decodeStep .waiting true) (by simpa using hl : s.referenceLevel = false)
        exact hr ▸ .rise hp
  | delayingEnd =>
    rw [State.tick_of_delayingEnd level hp]
    split
    next hc => exact .release level hp hc
    next hc => exact .finish level hp hc
  | idle => exact State.tick_of_idle level hp ▸ .ignore level hp

/-! ### What each row writes -/

/-- The columns of the access matrix that name more than `INIT`, for an instruction that leads from `s` to `t` (R29). -/
def WritesAsListed (i : Instr) (s t : State) : Prop :=
  (t.phase ≠ s.phase →
    i = .stepStandbyTrig ∨ (∃ l, i = .stepDelay l) ∨ i = .stepWaitRise ∨ i = .stepWaitFall ∨ i = .stepWaitStay0 ∨
      i = .stepWaitStay1 ∨ (∃ l, i = .stepEnd l) ∨ i = .readIdle ∨ ∃ pin, i = .init pin) ∧
  (t.currentLevel ≠ s.currentLevel → i.isStep = true) ∧
  (t.referenceLevel ≠ s.referenceLevel → ∃ l, i = .stepDelay l) ∧
  (t.pendingWord ≠ s.pendingWord →
    i = .stepWaitRise ∨ i = .stepWaitStay0 ∨ i = .stepWaitStay1 ∨ i = .readIdle ∨ ∃ pin, i = .init pin) ∧
  (t.bitsRemaining ≠ s.bitsRemaining →
    i = .stepWaitRise ∨ i = .stepWaitFall ∨ i = .readIdle ∨ ∃ pin, i = .init pin) ∧
  (t.tickCounter ≠ s.tickCounter →
    (i.isStep = true ∧ i ≠ .stepStandbyHold ∧ (∀ l, i ≠ .stepIdle l)) ∨ i = .readIdle ∨ ∃ pin, i = .init pin)

theorem State.TickRow.writesAsListed {i : Instr} {s t : State} (h : s.TickRow i t) : WritesAsListed i s t := by
  cases h with
  | hold hp => simp [WritesAsListed, Instr.isStep]
  | trigger hp => simp [WritesAsListed, Instr.isStep]
  | count level hp hc => simp [WritesAsListed, Instr.isStep]
  | capture level hp hc => simp [WritesAsListed, Instr.isStep]
  | stay i hi hp hc => obtain rfl | rfl := hi <;> simp [WritesAsListed, Instr.isStep]
  | timeout i hi hp hc => obtain rfl | rfl := hi <;> simp [WritesAsListed, Instr.isStep]
  | fall hp => simp [WritesAsListed, Instr.isStep]
  | rise hp => simp [WritesAsListed, Instr.isStep]
  | finish level hp hc => simp [WritesAsListed, Instr.isStep]
  | release level hp hc => simp [WritesAsListed, Instr.isStep]
  | ignore level hp => simp [WritesAsListed, Instr.isStep]

/-- A `Read` in `Idle` runs `READ.IDLE`, and elsewhere it writes no element of DecoderState (R140, R141). -/
theorem writesAsListed_read (s : State) : WritesAsListed (decodeRead s.phase) s s.readArm := by
  rw [decodeRead_eq, State.readArm]
  split
  next hp => simp [WritesAsListed, State.collect]
  next hp => simp [WritesAsListed]

/-- The edges and the parameters are no row's to write; the pin and the mark of the first `Init` are written by `INIT`
alone (R28, R29). -/
theorem exec_frame {i : Instr} {s t : State} (h : exec i s = .next t) :
    (t.params = s.params ∧ t.inputs = s.inputs ∧ t.edgeCount = s.edgeCount) ∧
      ((t.inputPin = s.inputPin ∧ t.initialised = s.initialised) ∨ ∃ pin, i = .init pin) := by
  obtain ⟨rfl, rfl⟩ | ⟨pin, rfl, rfl⟩ | ⟨level, rfl, -, rfl⟩ | ⟨rfl, -, rfl⟩ := exec_next_cases h
  · exact ⟨⟨rfl, rfl, rfl⟩, .inl ⟨rfl, rfl⟩⟩
  · exact ⟨⟨rfl, rfl, rfl⟩, .inr ⟨pin, rfl⟩⟩
  · rw [State.tick_frame]
    exact ⟨⟨rfl, rfl, rfl⟩, .inl ⟨rfl, rfl⟩⟩
  · unfold State.readArm
    split
    · exact ⟨⟨rfl, rfl, rfl⟩, .inl ⟨rfl, rfl⟩⟩
    · exact ⟨⟨rfl, rfl, rfl⟩, .inl ⟨rfl, rfl⟩⟩

/-! ### What a `Read` returns -/

/-- A `Read` appends `rd_data` (R9, R12). -/
@[simp] theorem State.readArm_reads (s : State) : s.readArm.reads = s.reads ++ [s.rdData] := by
  unfold State.readArm State.rdData
  split <;> rfl

/-- A `Read` leaves `Idle`, and enters it from no other phase (R140, R141). -/
theorem State.readArm_phase_ne_idle (s : State) : s.readArm.phase ≠ .idle := by
  unfold State.readArm
  split
  next hp => simp [State.collect]
  next hp => exact hp

theorem State.rdData_of_ne_idle {s : State} (hp : s.phase ≠ .idle) : s.rdData = 0#16 := if_neg hp

@[simp] theorem State.readArm_params (s : State) : s.readArm.params = s.params := by
  unfold State.readArm
  split <;> rfl

@[simp] theorem State.readArm_initialised (s : State) : s.readArm.initialised = s.initialised := by
  unfold State.readArm
  split <;> rfl

/-- Settles O34: a READ row is a `Read`, and neither a tick nor `Init` returns anything. -/
theorem onlyReadsReturnAndTheyReturnRdData : Obligations.OnlyReadsReturnAndTheyReturnRdData := by
  intro i s t h
  change t.reads = if i.isRead then s.reads ++ [s.rdData] else s.reads
  obtain ⟨rfl, rfl⟩ | ⟨pin, rfl, rfl⟩ | ⟨level, rfl, -, rfl⟩ | ⟨rfl, -, rfl⟩ := exec_next_cases h
  · rfl
  · rfl
  · simp
  · simp

/-- Settles O29: the rows of a tick are listed by `State.TickRow`, and NOP, INIT and the READ rows write what their arms
say. -/
theorem eachElementIsWrittenOnlyByItsEvents : Obligations.EachElementIsWrittenOnlyByItsEvents := by
  intro i s t h
  obtain ⟨hfixed, hpin⟩ := exec_frame h
  have hreads := onlyReadsReturnAndTheyReturnRdData i s t h
  have hwrites : WritesAsListed i s t := by
    obtain ⟨rfl, rfl⟩ | ⟨pin, rfl, rfl⟩ | ⟨level, rfl, -, rfl⟩ | ⟨rfl, -, rfl⟩ := exec_next_cases h
    · simp [WritesAsListed]
    · simp [WritesAsListed]
    · exact (s.tickRow level).writesAsListed
    · exact writesAsListed_read s
  obtain ⟨hphase, hcurrent, hreference, hword, hbits, hcounter⟩ := hwrites
  refine ⟨hfixed, fun hne => ?_, hphase, hcurrent, hreference, hword, hbits, hcounter, fun hne => ?_, fun hne => ?_⟩
  · exact hpin.resolve_left fun hsame => hne hsame.1
  · exact hpin.resolve_left fun hsame => hne hsame.2
  · by_contra hread
    exact hne (by rw [hreads, if_neg hread])

/-- A `Read` does not look at the edges still to come. -/
theorem State.readArm_withInputs (s : State) (edges : List Edge) :
    (s.withInputs edges).readArm = s.readArm.withInputs edges := by
  unfold State.readArm
  rw [State.ite_withInputs]
  rfl

/-- The step of an edge with `rd` alone that is written down. -/
theorem step_of_read_input {s : State} {p : Pin} {rest : List Edge} (ha : s.params.admissible = true)
    (hi : s.initialised = true) (hin : s.inputs = readEdge p :: rest) :
    step s = .next (s.readArm.withInputs rest) :=
  (step_of_readEdge ha hi hin (readEdge_kind p)).trans (congrArg _ (s.readArm_withInputs rest))

/-- Settles O35: the first `Read` leaves a phase other than `Idle`, where the second returns 0. -/
theorem secondOfTwoReadsReturnsZero : Obligations.SecondOfTwoReadsReturnsZero := by
  intro s p q rest ha hi hin
  have hfirst : step s = .next (s.readArm.withInputs (readEdge q :: rest)) := step_of_read_input ha hi hin
  have hsecond := step_of_read_input (s := s.readArm.withInputs (readEdge q :: rest)) (by simpa using ha)
    (by simpa using hi) rfl
  have hbusy : (s.readArm.withInputs (readEdge q :: rest)).rdData = 0#16 :=
    State.rdData_of_ne_idle s.readArm_phase_ne_idle
  refine ⟨_, (run_succ_next 1 s _ hfirst).trans (run_succ_next 0 _ _ hsecond), rfl,
    State.readArm_phase_ne_idle _, ?_⟩
  rw [State.withInputs_reads, State.readArm_reads, hbusy, State.withInputs_reads, State.readArm_reads,
    List.append_assoc]
  rfl

/-! ### The edges of `phase` -/

/-- An instruction that leads from `s` to `t` moves `phase` along an edge of R124, or no edge has its condition met. -/
def FollowsEdges (i : Instr) (s t : State) : Prop :=
  phaseEdge i s t.phase ∨ (t.phase = s.phase ∧ ∀ q, ¬ phaseEdge i s q)

theorem State.TickRow.followsEdges {i : Instr} {s t : State} (h : s.TickRow i t) : FollowsEdges i s t := by
  cases h with
  | hold hp => simp [FollowsEdges, phaseEdge]
  | trigger hp => simp [FollowsEdges, phaseEdge, hp]
  | count level hp hc => simp [FollowsEdges, phaseEdge, hp, hc, -BitVec.toNat_add]
  | capture level hp hc => simp [FollowsEdges, phaseEdge, hp, hc, -BitVec.toNat_add]
  | stay i hi hp hc => obtain rfl | rfl := hi <;> simp [FollowsEdges, phaseEdge, hp, hc, -BitVec.toNat_add]
  | timeout i hi hp hc => obtain rfl | rfl := hi <;> simp [FollowsEdges, phaseEdge, hp, hc, -BitVec.toNat_add]
  | fall hp => by_cases hlast : s.bitsRemaining - 1#4 = 0#4 <;> simp [FollowsEdges, phaseEdge, hp, hlast]
  | rise hp => by_cases hlast : s.bitsRemaining - 1#4 = 0#4 <;> simp [FollowsEdges, phaseEdge, hp, hlast]
  | finish level hp hc => simp [FollowsEdges, phaseEdge, hp, hc, -BitVec.toNat_add]
  | release level hp hc => simp [FollowsEdges, phaseEdge, hp, hc, -BitVec.toNat_add]
  | ignore level hp => simp [FollowsEdges, phaseEdge]

/-- E7 is the only edge of a `Read` (R124, R140, R141). -/
theorem followsEdges_read (s : State) : FollowsEdges (decodeRead s.phase) s s.readArm := by
  rw [decodeRead_eq, State.readArm]
  split
  next hp => simp [FollowsEdges, phaseEdge, hp, State.collect]
  next hp => simp [FollowsEdges, phaseEdge]

/-- Settles O30: each outcome of a tick is on the edge of its row or on none; E7 is `READ.IDLE`, E8 is `INIT`. -/
theorem phaseChangesExactlyAlongTheListedEdges : Obligations.PhaseChangesExactlyAlongTheListedEdges := by
  intro i s t h
  change FollowsEdges i s t
  obtain ⟨rfl, rfl⟩ | ⟨pin, rfl, rfl⟩ | ⟨level, rfl, -, rfl⟩ | ⟨rfl, -, rfl⟩ := exec_next_cases h
  · simp [FollowsEdges, phaseEdge]
  · simp [FollowsEdges, phaseEdge]
  · exact (s.tickRow level).followsEdges
  · exact followsEdges_read s

end Sys2Proof.Machine
end

section
/-! SUPPORT and proofs for the invariant of the phases, the counters, the word and the returned values (R30 to R32, R78,
R80), and for the states in which a block begins (R34, R100). -/

namespace Sys2Proof.Machine

/-! ### The shape of the phase a state is in -/

/-- What R30, R31 and R32 say of one phase. -/
def State.ShapeIn (s : State) (p : Phase) : Prop :=
  match p with
  | .standby => s.bitsRemaining.toNat = s.params.numBits ∧ s.tickCounter = 0#8 ∧ s.pendingWord = 0#16
  | .delaying => s.BitsLeft ∧ s.tickCounter.toNat ≤ s.params.delay ∧ s.Partial
  | .waiting => s.BitsLeft ∧ s.tickCounter.toNat ≤ s.params.timeout ∧ s.Partial
  | .delayingEnd => s.bitsRemaining = 0#4 ∧ s.tickCounter.toNat ≤ s.params.delay ∧ s.Partial
  | .idle => s.Completed ∨ s.TimedOut

/-- `Shape` speaks of the phase that the state is in, and of no other. -/
theorem State.shape_iff {s : State} {p : Phase} (hp : s.phase = p) : s.Shape ↔ s.ShapeIn p := by
  subst hp
  cases hp : s.phase <;> simp [State.Shape, State.ShapeIn, hp]

/-! ### Standby -/

/-- `NUM_BITS` fits `bitsRemaining` (R6). -/
theorem toNat_ofNat_numBits {p : Params} (ha : p.admissible = true) : (BitVec.ofNat 4 p.numBits).toNat = p.numBits := by
  obtain ⟨-, hbits, -, -⟩ := bounds_of_admissible p ha
  rw [BitVec.toNat_ofNat, Nat.mod_eq_of_lt (by omega)]

/-- The state after `Init` and after the re-arm (R100, R140). -/
theorem State.shape_of_armed {s : State} (ha : s.params.admissible = true) (hp : s.phase = .standby)
    (hbits : s.bitsRemaining = BitVec.ofNat 4 s.params.numBits) (hticks : s.tickCounter = 0#8)
    (hword : s.pendingWord = 0#16) : s.Shape :=
  (State.shape_iff hp).2 ⟨hbits ▸ toNat_ofNat_numBits ha, hticks, hword⟩

theorem State.initialise_inv {s : State} (pin : Pin) (ha : s.params.admissible = true)
    (hreads : ∀ v ∈ s.reads, legalResult s.params.numBits v) : (s.initialise pin).Inv :=
  ⟨ha, fun _ => State.shape_of_armed ha rfl rfl rfl rfl, hreads⟩

/-- Settles O41: `INIT` completes in every state, in the shape of `Standby`. -/
theorem initRestoresTheInvariant : Obligations.InitRestoresTheInvariant :=
  fun s pin ha hreads => ⟨s.initialise pin, exec_init s pin, State.initialise_inv pin ha hreads⟩

/-- Settles O40: the state after reset is a state after `Init`, with nothing returned. -/
theorem resetHasTheInvariant : Obligations.ResetHasTheInvariant :=
  State.initialise_inv (s := State.reset) ⟨0⟩ (by decide) fun _ hv => nomatch hv

/-- Settles O13: `State.reset` is evaluated. -/
theorem resetLeavesStandbyWithClearedCounters : Obligations.ResetLeavesStandbyWithClearedCounters :=
  ⟨rfl, rfl, rfl, rfl, rfl⟩

/-- The constraints of R6, each once. -/
theorem admissible_iff (p : Params) :
    p.admissible = true ↔
      1 ≤ p.numBits ∧ p.numBits ≤ 15 ∧ max p.delay p.timeout + 1 ≤ 255 ∧ 0 < p.tTickNanos := by
  simp only [Params.admissible, Bool.and_eq_true, decide_eq_true_eq]
  omega

/-- Settles O14: `build` tests the parameters and leaves the state of `initialise`. -/
theorem buildRejectsExactlyInadmissibleParameters : Obligations.BuildRejectsExactlyInadmissibleParameters := by
  intro p pin
  refine ⟨?_, fun s hs => ?_⟩
  · rw [← admissible_iff, State.build]
    split
    next ha => simp [ha]
    next ha => simp [ha]
  · obtain ⟨ha, rfl⟩ := (State.build_eq_some p pin s).1 hs
    exact ⟨rfl, rfl, rfl, rfl, rfl, toNat_ofNat_numBits ha, rfl⟩

/-! ### The word under construction -/

/-- A word with its low `b` bits clear has any fewer of them clear. -/
theorem mod_two_pow_of_le {v b c : Nat} (h : v % 2 ^ b = 0) (hc : c ≤ b) : v % 2 ^ c = 0 :=
  Nat.mod_eq_zero_of_dvd ((Nat.pow_dvd_pow 2 hc).trans (Nat.dvd_of_mod_eq_zero h))

theorem setbit_toNat (v : Word) {i : Nat} (hi : i < 16) : (setbit v i).toNat = v.toNat ||| 2 ^ i := by
  have hlt : 2 ^ i < 2 ^ 16 := Nat.pow_lt_pow_right (by decide) hi
  rw [setbit, BitVec.toNat_or, BitVec.toNat_shiftLeft, BitVec.toNat_ofNat, Nat.one_mod_two_pow (by decide),
    Nat.one_shiftLeft, Nat.mod_eq_of_lt hlt]

/-- The bit at the decremented index lies above those still to come (R32, R77). -/
theorem setbit_mod_two_pow (v : Word) {i : Nat} (hi : i < 16) (h : v.toNat % 2 ^ i = 0) :
    (setbit v i).toNat % 2 ^ i = 0 := by
  rw [setbit_toNat v hi, Nat.or_mod_two_pow, h, Nat.mod_self, Nat.or_self]

theorem setbit_lt_two_pow (v : Word) {i n : Nat} (hi : i < n) (hn : n ≤ 16) (h : v.toNat < 2 ^ n) :
    (setbit v i).toNat < 2 ^ n := by
  rw [setbit_toNat v (by omega)]
  exact Nat.or_lt_two_pow h (Nat.pow_lt_pow_right (by decide) hi)

/-- The count of R27 does not wrap while a bit is left. -/
theorem toNat_sub_one {c : BitCount} (h : 1 ≤ c.toNat) : (c - 1#4).toNat + 1 = c.toNat := by bv_omega

/-- After an accepted bit: a partial word in `Delaying`, or in `DelayingEnd` when no bit is left (R116, R117). -/
theorem State.shape_of_accepted {s : State}
    (hp : s.phase = if s.bitsRemaining = 0#4 then .delayingEnd else .delaying) (hticks : s.tickCounter = 0#8)
    (hbits : s.bitsRemaining.toNat ≤ s.params.numBits) (hpart : s.Partial) : s.Shape := by
  have hcount : s.tickCounter.toNat ≤ s.params.delay := by simp [hticks]
  by_cases hlast : s.bitsRemaining = 0#4
  · rw [if_pos hlast] at hp
    exact (State.shape_iff hp).2 ⟨hlast, hcount, hpart⟩
  · rw [if_neg hlast] at hp
    have hpos : 1 ≤ s.bitsRemaining.toNat := by bv_omega
    exact (State.shape_iff hp).2 ⟨⟨hpos, hbits⟩, hcount, hpart⟩

/-! ### Every event keeps the invariant -/

/-- Each outcome of a tick leaves the shape of the phase that it leads to. -/
theorem State.TickRow.shape {i : Instr} {s t : State} (h : s.TickRow i t) (ha : s.params.admissible = true)
    (hs : s.Shape) : t.Shape := by
  obtain ⟨hpos, hnum, hdelay, htimeout⟩ := bounds_of_admissible s.params ha
  cases h with
  | hold hp => exact hs
  | trigger hp =>
    obtain ⟨hbits, -, hword⟩ := (State.shape_iff hp).1 hs
    have hpart : s.Partial := by simp [State.Partial, hword]
    exact (State.shape_iff (p := .delaying) rfl).2 ⟨⟨hbits ▸ hpos, hbits.le⟩, Nat.zero_le _, hpart⟩
  | count level hp hc =>
    obtain ⟨hbits, -, hpart⟩ := (State.shape_iff hp).1 hs
    have hcount := Nat.le_of_not_lt hc
    exact (State.shape_iff (p := .delaying) (by exact hp)).2 ⟨hbits, hcount, hpart⟩
  | capture level hp hc =>
    obtain ⟨hbits, -, hpart⟩ := (State.shape_iff hp).1 hs
    exact (State.shape_iff (p := .waiting) rfl).2 ⟨hbits, Nat.zero_le _, hpart⟩
  | stay i hi hp hc =>
    obtain ⟨hbits, -, hpart⟩ := (State.shape_iff hp).1 hs
    have hcount := Nat.le_of_not_lt hc
    exact (State.shape_iff (p := .waiting) (by exact hp)).2 ⟨hbits, hcount, hpart⟩
  | timeout i hi hp hc =>
    obtain ⟨hbits, hticks, -⟩ := (State.shape_iff hp).1 hs
    have hnext := toNat_add_one_of_le s.tickCounter (by omega)
    have hout : (s.tickCounter + 1#8).toNat = s.params.timeout + 1 := by omega
    exact (State.shape_iff (p := .idle) rfl).2 (.inr ⟨hbits, hout, rfl⟩)
  | fall hp =>
    obtain ⟨⟨hleft, hbits⟩, -, hlow, hword⟩ := (State.shape_iff hp).1 hs
    have hdrop := toNat_sub_one hleft
    have hle := Nat.le_of_succ_le hdrop.le
    exact State.shape_of_accepted rfl rfl (hle.trans hbits) ⟨mod_two_pow_of_le hlow hle, hword⟩
  | rise hp =>
    obtain ⟨⟨hleft, hbits⟩, -, hlow, hword⟩ := (State.shape_iff hp).1 hs
    have hdrop := toNat_sub_one hleft
    have hle := Nat.le_of_succ_le hdrop.le
    have hindex : (s.bitsRemaining - 1#4).toNat < s.params.numBits := by omega
    have hwidth : s.params.numBits < 16 := by omega
    exact State.shape_of_accepted rfl rfl (hle.trans hbits)
      ⟨setbit_mod_two_pow _ (hindex.trans hwidth) (mod_two_pow_of_le hlow hle),
        setbit_lt_two_pow _ hindex hwidth.le hword⟩
  | finish level hp hc =>
    obtain ⟨hbits, -, hpart⟩ := (State.shape_iff hp).1 hs
    have hcount := Nat.le_of_not_lt hc
    exact (State.shape_iff (p := .delayingEnd) (by exact hp)).2 ⟨hbits, hcount, hpart⟩
  | release level hp hc =>
    obtain ⟨hbits, hticks, -, hword⟩ := (State.shape_iff hp).1 hs
    have hnext := toNat_add_one_of_le s.tickCounter (by omega)
    have hout : (s.tickCounter + 1#8).toNat = s.params.delay + 1 := by omega
    exact (State.shape_iff (p := .idle) rfl).2 (.inl ⟨hbits, hout, hword⟩)
  | ignore level hp => exact hs

theorem State.tick_inv {s : State} (level : Bool) (h : s.Inv) (hi : s.initialised = true) : (s.tick level).Inv := by
  obtain ⟨ha, hshape, hreads⟩ := h
  refine ⟨?_, fun _ => (s.tickRow level).shape ha (hshape hi), ?_⟩
  · simpa using ha
  · simpa using hreads

/-- What a `Read` returns in a state of the invariant (R78, R80). -/
theorem State.Inv.legalResult_rdData {s : State} (h : s.Inv) (hi : s.initialised = true) :
    legalResult s.params.numBits s.rdData := by
  by_cases hp : s.phase = .idle
  · have hword : s.rdData = s.pendingWord := if_pos hp
    rw [hword]
    exact State.Inv.legalResult_of_idle h hi hp
  · rw [State.rdData_of_ne_idle hp]
    exact .inr (Nat.two_pow_pos _)

/-- A `Read` leaves the re-armed shape or writes nothing that `Shape` speaks of. -/
theorem State.readArm_shape {s : State} (ha : s.params.admissible = true) (hs : s.Shape) : s.readArm.Shape := by
  unfold State.readArm
  split
  · exact State.shape_of_armed ha rfl rfl rfl rfl
  · exact hs

theorem State.readArm_inv {s : State} (h : s.Inv) (hi : s.initialised = true) : s.readArm.Inv := by
  have hresult := State.Inv.legalResult_rdData h hi
  obtain ⟨ha, hshape, hreads⟩ := h
  refine ⟨by simpa using ha, fun _ => State.readArm_shape ha (hshape hi), fun v hv => ?_⟩
  rw [State.readArm_params]
  rw [State.readArm_reads, List.mem_append, List.mem_singleton] at hv
  obtain hold | rfl := hv
  · exact hreads v hold
  · exact hresult

/-- Every instruction keeps the invariant. -/
theorem exec_keeps_inv {i : Instr} {s t : State} (h : s.Inv) (hexec : exec i s = .next t) : t.Inv := by
  obtain ⟨-, rfl⟩ | ⟨pin, -, rfl⟩ | ⟨level, -, hi, rfl⟩ | ⟨-, hi, rfl⟩ := exec_next_cases hexec
  · exact h
  · obtain ⟨ha, -, hreads⟩ := h
    exact State.initialise_inv pin ha hreads
  · exact State.tick_inv level h hi
  · exact State.readArm_inv h hi

/-- Settles O39: taking the event writes nothing the invariant speaks of, and the instruction keeps it
(`exec_keeps_inv`; the ticks are `State.TickRow.shape`). -/
theorem stepKeepsTheInvariant : Obligations.StepKeepsTheInvariant := by
  intro s t h hstep
  obtain ⟨-, i, -, hexec⟩ := step_next s t hstep
  have hconsume : s.consume.Inv := h
  exact exec_keeps_inv hconsume hexec

/-- Settles O36: the invariant holds after the instruction too, and it makes every returned value a legal result. -/
theorem returnedValuesAreZeroSentinelOrAWord : Obligations.ReturnedValuesAreZeroSentinelOrAWord := by
  intro i s t h hexec v hv
  obtain ⟨ha, -, hreads⟩ := exec_keeps_inv h hexec
  obtain ⟨⟨hparams, -, -⟩, -⟩ := exec_frame hexec
  rw [hparams] at ha hreads
  obtain ⟨-, hnum, -, -⟩ := bounds_of_admissible s.params ha
  exact toInt_of_legalResult hnum (hreads v hv)

end Sys2Proof.Machine
end

section
/-! SUPPORT and proofs for what does not interfere: the level flags left by an earlier event (R24, R25, R33), and the
instances of a list (R165). -/

namespace Sys2Proof.Machine

/-! ### Stale level flags -/

/-- The state with other level flags. -/
def State.withFlags (s : State) (current reference : Bool) : State :=
  { s with currentLevel := current, referenceLevel := reference }

/-- Two states are the same to a consumer where other flags make one of the other, and `Waiting`, which compares with
the reference, has the same one. -/
theorem State.sameToConsumer_iff (s u : State) :
    s.SameToConsumer u ↔ ∃ c r, u = s.withFlags c r ∧ (s.phase = .waiting → r = s.referenceLevel) := by
  refine ⟨fun ⟨hu, hr⟩ => ⟨_, _, hu, hr⟩, ?_⟩
  rintro ⟨c, r, rfl, hr⟩
  exact ⟨rfl, hr⟩

theorem State.sameToConsumer_withFlags {s : State} (c : Bool) {r : Bool}
    (hr : s.phase = .waiting → r = s.referenceLevel) : s.SameToConsumer (s.withFlags c r) :=
  (s.sameToConsumer_iff _).2 ⟨c, r, rfl, hr⟩

/-- A tick writes `currentLevel` before it reads it, and reads `referenceLevel` in `Waiting` alone, which it enters only
by the capture (R110, R114, R116 to R118). -/
theorem State.tick_sameToConsumer {s : State} (level c : Bool) {r : Bool}
    (hr : s.phase = .waiting → r = s.referenceLevel) :
    (s.tick level).SameToConsumer ((s.withFlags c r).tick level) := by
  rw [State.sameToConsumer_iff]
  have hphase : (s.withFlags c r).phase = s.phase := rfl
  cases hp : s.phase with
  | standby =>
    cases level with
    | false =>
      rw [State.tick_of_standby_space hp, State.tick_of_standby_space (hphase.trans hp)]
      exact ⟨false, r, rfl, by simp [hp]⟩
    | true =>
      rw [State.tick_of_standby_mark hp, State.tick_of_standby_mark (hphase.trans hp)]
      exact ⟨true, r, rfl, by simp⟩
  | delaying =>
    have hother := State.tick_of_delaying level (hphase.trans hp)
    rw [State.tick_of_delaying level hp]
    by_cases hc : s.params.delay < (s.tickCounter + 1#8).toNat
    · rw [if_pos hc]
      exact ⟨level, level, hother.trans (if_pos hc), by simp⟩
    · rw [if_neg hc]
      exact ⟨level, r, hother.trans (if_neg hc), by simp [hp]⟩
  | waiting =>
    obtain rfl := hr hp
    exact ⟨_, _, rfl, fun _ => rfl⟩
  | delayingEnd =>
    have hother := State.tick_of_delayingEnd level (hphase.trans hp)
    rw [State.tick_of_delayingEnd level hp]
    by_cases hc : s.params.delay < (s.tickCounter + 1#8).toNat
    · rw [if_pos hc]
      exact ⟨level, r, hother.trans (if_pos hc), by simp⟩
    · rw [if_neg hc]
      exact ⟨level, r, hother.trans (if_neg hc), by simp [hp]⟩
  | idle =>
    rw [State.tick_of_idle level hp, State.tick_of_idle level (hphase.trans hp)]
    exact ⟨level, r, rfl, by simp [hp]⟩

/-- A `Read` looks at neither flag. -/
theorem State.readArm_sameToConsumer {s : State} (c : Bool) {r : Bool}
    (hr : s.phase = .waiting → r = s.referenceLevel) : s.readArm.SameToConsumer (s.withFlags c r).readArm := by
  have hphase : (s.withFlags c r).phase = s.phase := rfl
  unfold State.readArm
  rw [hphase]
  split
  · exact State.sameToConsumer_withFlags (s := s.collect) c fun hwaiting => nomatch hwaiting
  · exact State.sameToConsumer_withFlags (s := s.returnValue 0#16) c hr

theorem State.effect_sameToConsumer {s : State} (e : Edge) (c : Bool) {r : Bool}
    (hr : s.phase = .waiting → r = s.referenceLevel) : (s.effect e).SameToConsumer ((s.withFlags c r).effect e) := by
  cases hk : e.kind with
  | nop =>
    rw [State.effect_of_nop hk, State.effect_of_nop hk]
    exact State.sameToConsumer_withFlags c hr
  | step =>
    rw [State.effect_of_step hk, State.effect_of_step hk]
    exact State.tick_sameToConsumer _ c hr
  | read =>
    rw [State.effect_of_read hk, State.effect_of_read hk]
    exact State.readArm_sameToConsumer c hr
  | init =>
    rw [State.effect_of_init hk, State.effect_of_init hk]
    exact State.sameToConsumer_withFlags (s := s.initialise e.pin) c fun hwaiting => nomatch hwaiting

/-- States that are the same to a consumer have returned the same values. -/
theorem State.SameToConsumer.reads_eq {s u : State} (h : s.SameToConsumer u) : u.reads = s.reads := by
  obtain ⟨c, r, rfl, -⟩ := (s.sameToConsumer_iff u).1 h
  rfl

/-- Settles O38: the two states take the same event, whose effects are the same to a consumer. -/
theorem staleLevelFlagsAreNeverObserved : Obligations.StaleLevelFlagsAreNeverObserved := by
  intro s s' t hsame hstep
  obtain ⟨c, r, rfl, hr⟩ := (s.sameToConsumer_iff s').1 hsame
  obtain ⟨ha, hacc, rfl⟩ := (step_next_iff t).1 hstep
  have heffect := State.effect_sameToConsumer (s := s.consume) s.nextEdge c hr
  exact ⟨_, step_of_accepts (s := s.withFlags c r) ha hacc, heffect, heffect.reads_eq⟩

/-! ### Instances -/

/-- An event on one block of a list is its own step, put back in its place (R165). -/
theorem stepInstance_next {xs ys : List State} {k : Fin xs.length} (h : stepInstance xs k = .next ys) :
    ∃ t, step xs[k] = .next t ∧ ys = xs.set k t := by
  unfold stepInstance at h
  split at h
  next t ht =>
    cases h
    exact ⟨t, ht, rfl⟩
  next => cases h
  next => cases h

/-- Settles O42: only the place of the block itself is written. -/
theorem instancesShareNothing : Obligations.InstancesShareNothing := by
  intro xs ys k h
  obtain ⟨t, ht, rfl⟩ := stepInstance_next h
  exact ⟨⟨t, ht, List.getElem?_set_self k.isLt⟩, List.length_set, fun j hj => List.getElem?_set_ne hj.symm⟩

end Sys2Proof.Machine
end

section
/-! SUPPORT and proofs for the counts in ticks (R126): the phases that count, the window of a transition, `Idle`, and
the idle line. -/

namespace Sys2Proof.Machine

/-! ### Delaying and DelayingEnd -/

/-- The first `DELAY` ticks only count, whatever their levels (R114, R119, R126). -/
theorem run_counts {s : State} {levels : List Bool} {last : Bool} {rest : List Edge} {k : Nat}
    (ha : s.params.admissible = true) (hi : s.initialised = true) (hp : s.phase = .delaying ∨ s.phase = .delayingEnd)
    (h0 : s.tickCounter = 0#8) (hlength : levels.length = s.params.delay)
    (hin : s.inputs = trace s.inputPin (ticks (levels ++ [last])) ++ rest) (hk : k ≤ s.params.delay) :
    ∃ t, Sys2Proof.core.run k s = .next t ∧ t.phase = s.phase ∧ t.tickCounter.toNat = k := by
  obtain ⟨-, -, hdelay, -⟩ := bounds_of_admissible s.params ha
  have hlimit : s.limit = s.params.delay := hp.elim State.limit_of_delaying State.limit_of_delayingEnd
  have hcounts (level : Bool) : s.Counts level := hp.imp_right .inl
  have htake : (levels.take k).length = k := List.length_take_of_le (by omega)
  have hticked := State.ticked_of_counts (levels := levels.take k) ha (fun level _ => hcounts level)
    (by simp only [h0, htake, hlimit, BitVec.toNat_ofNat]; omega)
  refine ⟨_, run_ticks_take ha hi hin (by rw [List.length_append]; omega), ?_⟩
  rw [List.take_append_of_le_length (by omega), State.ticked_withInputs, State.withInputs_phase,
    State.withInputs_tickCounter, hticked, htake]
  refine ⟨rfl, ?_⟩
  rw [toNat_add_ofNat_of_le _ (by simp only [h0, BitVec.toNat_ofNat]; omega), h0]
  exact Nat.zero_add k

/-- Settles O43: the first `DELAY` ticks only count, and the next one captures. -/
theorem captureComesAtTickDelayPlusOne : Obligations.CaptureComesAtTickDelayPlusOne := by
  intro s levels last rest ha hi hp h0 hlength hin
  refine ⟨fun k hk => ?_, ?_⟩
  · exact hp ▸ run_counts ha hi (.inl hp) h0 hlength hin hk
  · have hrun := run_ticks ha hi hin
    have hcaptures := State.ticked_captures (levels := levels) last ha hp (by rw [h0, hlength]; exact Nat.zero_add _)
    rw [List.length_append, hlength, State.ticked_withInputs, hcaptures] at hrun
    exact hrun

/-- Settles O46: the first `DELAY` ticks only count, and the next one releases the word. -/
theorem wordIsReleasedAtTickDelayPlusOne : Obligations.WordIsReleasedAtTickDelayPlusOne := by
  intro s levels last rest ha hi hp h0 hlength hin
  refine ⟨fun k hk => ?_, ?_⟩
  · obtain ⟨t, hrun, hphase, -⟩ := run_counts ha hi (.inr hp) h0 hlength hin hk
    exact ⟨t, hrun, hphase.trans hp⟩
  · have hrun := run_ticks ha hi hin
    have hreleases := State.ticked_releases (levels := levels) last ha hp (by rw [h0, hlength]; exact Nat.zero_add _)
    rw [List.length_append, hlength, State.ticked_withInputs, hreleases, h0, hlength, BitVec.zero_add,
      ← BitVec.ofNat_add] at hrun
    exact hrun

/-! ### Waiting -/

/-- Ticks without a transition up to `TIMEOUT`, and then one at the complement of the reference, which is accepted as a
bit (R116 to R118). -/
theorem State.ticked_accepts {s : State} {k : Nat} (ha : s.params.admissible = true) (hp : s.phase = .waiting)
    (h0 : s.tickCounter = 0#8) (hk : k ≤ s.params.timeout) :
    s.ticked (List.replicate k s.referenceLevel ++ [!s.referenceLevel]) =
      { s with
        currentLevel := !s.referenceLevel
        bitsRemaining := s.bitsRemaining - 1#4
        tickCounter := 0#8
        pendingWord :=
          if s.referenceLevel then s.pendingWord else setbit s.pendingWord (s.bitsRemaining - 1#4).toNat
        phase := if s.bitsRemaining - 1#4 = 0#4 then .delayingEnd else .delaying } := by
  have hlimit : k ≤ s.limit := by rwa [State.limit_of_waiting hp]
  rw [State.ticked_append, State.ticked_replicate_of_counts ha (.inr (.inr ⟨hp, rfl⟩)) h0 hlimit,
    State.ticked_singleton]
  refine (State.tick_of_waiting_change (by exact hp) (by simp)).trans ?_
  cases s.referenceLevel <;> rfl

/-- Settles O44: the window is `State.ticked_accepts`. -/
theorem transitionIsAcceptedWithinTheWindow : Obligations.TransitionIsAcceptedWithinTheWindow := by
  intro s k rest ha hi hp h0 hk hin
  have hrun := run_ticks ha hi hin
  rw [List.length_append, List.length_replicate, State.ticked_withInputs, State.ticked_accepts ha hp h0 hk] at hrun
  exact hrun

/-! ### Idle -/

/-- Ticks in `Idle` write nothing but the sample (R120). -/
theorem State.ticked_of_idle {s : State} {levels : List Bool} (hp : s.phase = .idle) :
    s.ticked levels = { s with currentLevel := levels.getLastD s.currentLevel } := by
  induction levels generalizing s with
  | nil => rfl
  | cons level levels ih =>
    rw [State.ticked_cons, State.tick_of_idle level hp, List.getLastD_cons]
    exact ih hp

/-- Settles O47: a run of ticks in `Idle` is `State.ticked_of_idle`. -/
theorem unreadResultOutlastsAnyTicks : Obligations.UnreadResultOutlastsAnyTicks := by
  intro s levels rest ha hi hp hin
  rw [run_ticks ha hi hin, State.ticked_withInputs, State.ticked_of_idle hp]
  rfl

/-! ### The idle line -/

/-- One event of an idle line: the state stays in `Standby`, and a `Read` returns 0 (R112, R141). -/
theorem step_idleLine {s : State} {x : Token} {rest : List Edge} (ha : s.params.admissible = true)
    (hi : s.initialised = true) (hp : s.phase = .standby) (hx : x = .space ∨ x = .read)
    (hin : s.inputs = x.edge s.inputPin :: rest) :
    ∃ level, step s = .next
      { s with currentLevel := level, reads := s.reads ++ List.replicate ([x].count .read) 0#16, inputs := rest } := by
  obtain rfl | rfl := hx
  · refine ⟨false, ?_⟩
    have hreads : s.reads ++ List.replicate ([Token.space].count .read) 0#16 = s.reads := List.append_nil _
    rw [step_of_tickEdge ha hi hin, State.tick_withInputs, State.tick_of_standby_space hp, hreads]
    rfl
  · refine ⟨s.currentLevel, ?_⟩
    have hread : s.readArm = s.returnValue 0#16 := by simp [State.readArm, hp]
    rw [step_of_read_input ha hi hin, hread]
    rfl

/-- Settles O48: by induction on the tokens, one event each. -/
theorem idleLineReadsZero : Obligations.IdleLineReadsZero := by
  intro s ts rest ha hi hp hts hin
  induction ts generalizing s with
  | nil => exact ⟨s, rfl, hp, rfl, rfl, (List.append_nil _).symm, hin⟩
  | cons x ts ih =>
    obtain ⟨level, hstep⟩ := step_idleLine ha hi hp (hts x List.mem_cons_self) hin
    obtain ⟨t, hrun, hphase, hword, hbits, hreads, hinputs⟩ :=
      ih { s with
        currentLevel := level
        reads := s.reads ++ List.replicate ([x].count .read) 0#16
        inputs := trace s.inputPin ts ++ rest } ha hi hp (fun y hy => hts y (List.mem_cons_of_mem x hy)) rfl
    refine ⟨t, (run_succ_next ts.length s _ hstep).trans hrun, hphase, hword, hbits, ?_, hinputs⟩
    rw [hreads, List.append_assoc, ← List.replicate_add, ← List.count_append]
    rfl

end Sys2Proof.Machine
end
